-- ==== Sys2Proof/Word.lean ====
section
/-! DEFINITION. Words and bytes (00_scope.md rules R8 and R9). -/

namespace Sys2Proof

/-- A word is a 32-bit unsigned value (R8). Its `+` is `+₃₂` and its `^^^` is `⊕` (R9, R144). -/
abbrev Word := BitVec 32

/-- A byte is an 8-bit unsigned value (R8). Strings are lists of bytes (R10). -/
abbrev Byte := BitVec 8

end Sys2Proof
end

