-- ==== Sys2Proof/Syntax.lean ====
section
/-! DEFINITION. The 16 commands (30_encoding.md rule R102; spec/opcode_table.json). No command has an
operand field except SALT_GEN's RNG bit (R100). -/

namespace Sys2Proof

/-- One constructor for each row of the opcode table. -/
inductive Instr where
  | bfInit
  | bfEncrypt
  | bfDiscard
  | eksExpandSk
  | eksExpandK
  | eksExpandS
  | eksSetup
  | r64Encode
  | r64Decode
  | xlatToBcrypt
  | xlatToStd
  /-- `rng` is bit 8 of the word: take the salt bytes from the random-byte port (R100). -/
  | saltGen (rng : Bool)
  | saltParse
  | bcDigest
  | bcHash
  | bcCheck
  deriving DecidableEq, Repr

end Sys2Proof
end

