-- ==== Sys2Proof/Decode.lean ====
section
/-! DEFINITION. Decoding a command word and encoding a command (30_encoding.md R100 to R105). -/

namespace Sys2Proof

/-- Why a word is illegal whatever the implementation (R103, R104, R287). -/
inductive DecodeReject where
  /-- bits 31:9 are not all zero -/
  | reservedBits
  /-- bits 7:0 are no opcode of R102 -/
  | unknownOpcode
  /-- RNG = 1 on an opcode other than SALT_GEN -/
  | rngNotAllowed
  deriving DecidableEq, Repr

/-- The field OP, bits 7:0 (R100). -/
def opField (w : Word) : Byte := w.extractLsb' 0 8
/-- The field RNG, bit 8 (R100). -/
def rngField (w : Word) : Bool := w.extractLsb' 8 1 == 1#1
/-- The field RES, bits 31:9 (R100). -/
def resField (w : Word) : BitVec 23 := w.extractLsb' 9 23

/-- The opcode map (R102), with the RNG bit handed to SALT_GEN. -/
def instrOfOpcode (op : Byte) (rng : Bool) : Option Instr :=
  match op.toNat with
  | 0x01 => some .bfInit
  | 0x02 => some .bfEncrypt
  | 0x03 => some .bfDiscard
  | 0x10 => some .eksExpandSk
  | 0x11 => some .eksExpandK
  | 0x12 => some .eksExpandS
  | 0x13 => some .eksSetup
  | 0x20 => some .r64Encode
  | 0x21 => some .r64Decode
  | 0x22 => some .xlatToBcrypt
  | 0x23 => some .xlatToStd
  | 0x24 => some (.saltGen rng)
  | 0x25 => some .saltParse
  | 0x30 => some .bcDigest
  | 0x31 => some .bcHash
  | 0x32 => some .bcCheck
  | _ => none

/-- Decoding a command word (R103). Total: every word is a command or is rejected by name. Whether the
implementation HAS the random-byte port is not asked here but at the completion step, which gives the
same error code 10 (R287; log 9). -/
def decode (w : Word) : Except DecodeReject Instr :=
  if resField w ≠ 0#23 then .error .reservedBits
  else match instrOfOpcode (opField w) (rngField w) with
    | none => .error .unknownOpcode
    | some i => if rngField w = true ∧ i ≠ .saltGen true then .error .rngNotAllowed else .ok i

/-- The opcode column of R102. -/
def Instr.opcode : Instr → Byte
  | .bfInit => 0x01
  | .bfEncrypt => 0x02
  | .bfDiscard => 0x03
  | .eksExpandSk => 0x10
  | .eksExpandK => 0x11
  | .eksExpandS => 0x12
  | .eksSetup => 0x13
  | .r64Encode => 0x20
  | .r64Decode => 0x21
  | .xlatToBcrypt => 0x22
  | .xlatToStd => 0x23
  | .saltGen _ => 0x24
  | .saltParse => 0x25
  | .bcDigest => 0x30
  | .bcHash => 0x31
  | .bcCheck => 0x32

/-- The RNG bit of a command's word (R100): set only for SALT_GEN drawing its salt. -/
def Instr.rngBit : Instr → BitVec 1
  | .saltGen true => 1#1
  | .saltGen false => 0#1
  | .bfInit | .bfEncrypt | .bfDiscard | .eksExpandSk | .eksExpandK | .eksExpandS | .eksSetup
  | .r64Encode | .r64Decode | .xlatToBcrypt | .xlatToStd | .saltParse | .bcDigest | .bcHash
  | .bcCheck => 0#1

/-- The command word: RES = 0, then RNG, then OP (R100, R102). -/
def encode (i : Instr) : Word := 0#23 ++ i.rngBit ++ i.opcode

/-- The word of a row of spec/opcode_table.json: one 32-bit word (R105), bit 0 the least significant;
bits above `nbits` are zero. -/
def tableWord (nbits w : Nat) : Word := BitVec.ofNat 32 (w % 2 ^ nbits)

/-- What the decoder reads from such a word. -/
def decodeTableWord (nbits w : Nat) : Option Instr :=
  match decode (tableWord nbits w) with
  | .ok i => some i
  | .error _ => none

end Sys2Proof
end

