-- ==== Sys2Proof/Config.lean ====
section
/-! DEFINITION. The fixed parameters of 00_scope.md R6 and R7, and the parameters and draws the spec
leaves open. An `opaque` constant has no body: nothing can be proved about which value it is. -/

namespace Sys2Proof.Config

/-- Maximum password length in bytes, the KEY buffer capacity (R6, R7; 60_exceptions.md R282). -/
@[simp] abbrev keyLimit : Nat := 72
/-- BYTES buffer capacity, the limit of R64_ENCODE (R7, R282). -/
@[simp] abbrev bytesLimit : Nat := 48
/-- STR_IN capacity, the limit of the codec commands (R7, R282). -/
@[simp] abbrev strLimit : Nat := 64
/-- Length of an encoded hash, the limit of the salt and hash commands (R6, R282). -/
@[simp] abbrev hashStringLen : Nat := 60
/-- Length of an encoded salt (R6). -/
@[simp] abbrev saltStringLen : Nat := 29
/-- Length of the radix-64 salt field (R6). -/
@[simp] abbrev saltFieldLen : Nat := 22
/-- Encryption passes per digest block (R6). -/
@[simp] abbrev passes : Nat := 64
/-- Digest bytes encoded, of the 24 computed (R6). -/
@[simp] abbrev digestEncoded : Nat := 23
/-- Cost range, 4 to 31 inclusive (R6). -/
@[simp] abbrev minCost : Nat := 4
@[simp] abbrev maxCost : Nat := 31
/-- The register window: 8 KiB (R7, R70). -/
@[simp] abbrev windowBytes : Nat := 0x2000

/-- `HAS_RNG`: whether the random-byte port is wired (R7, R300). OPEN (92_eei_decisions.md D22):
one value for each implementation. Log 2. -/
opaque hasRng : Bool

/-- `RNG_DRAW(16)`: the bytes of draw number `n` of the port of instance stream `stream`, a free draw
for each call (R300). Log 3. -/
opaque rngDraw (stream n : Nat) : Vector Byte saltCap

/-- What the `n`-th read that meets BUSY = 1 returns at an offset other than ID, CMD and STATUS: an
unspecified value, a fresh draw for each read (R43; 93_implementation_defined.md U3). Log 4. -/
opaque busyRead (stream n : Nat) : Word

end Sys2Proof.Config
end

