-- ==== Sys2Proof/Machine/State.lean ====
section
/-! DEFINITION. The state: one BCRYPT-CORE instance (10_state.md), the hosts on its port and the
scheduler's choices (00_scope.md R16), and the two ways a step can stop. -/

namespace Sys2Proof.Machine

/-- The error codes (60_exceptions.md R281). `none` is success; `lengthMismatch` is defined and never
raised (R283); codes 12 to 255 are reserved and have no name here (log 12). -/
inductive ErrorCode where
  | none
  | invalidSalt
  | invalidSaltVersion
  | invalidSaltFormat
  | roundsExceeded
  | boundedLengthExceeded
  | roundsBelowMinimum
  | r64InvalidChar
  | r64InvalidLength
  | stateNotInitialized
  | illegalCommand
  | lengthMismatch
  deriving DecidableEq, Repr

/-- CipherState: the permutation array P and the substitution boxes S (10_state.md R22, R23). -/
structure CipherState where
  p : Vector Word 18
  s : Vector (Vector Word 256) 4
  deriving DecidableEq, Repr

/-- The architectural state of one instance (10_state.md R20), then the model's own three fields. -/
structure Engine where
  /-- P and S (R22, R23) -/
  cipher : CipherState
  /-- STATE_VALID (R24) -/
  stateValid : Bool
  /-- DATA_L and DATA_R (R25) -/
  dataL : Word
  dataR : Word
  /-- COST (R26) -/
  cost : Byte
  /-- MINOR (R27) -/
  minor : Byte
  /-- KEY and KEY_LEN (R28) -/
  key : Vector Byte 72
  keyLen : Byte
  /-- SALT (R30) -/
  salt : Vector Byte 16
  /-- BYTES and BYTES_LEN (R31) -/
  bytes : Vector Byte 48
  bytesLen : Byte
  /-- STR_IN and STR_IN_LEN (R32) -/
  strIn : Vector Byte 64
  strInLen : Byte
  /-- STR_OUT and STR_OUT_LEN (R33) -/
  strOut : Vector Byte 64
  strOutLen : Byte
  /-- DIGEST (R34) -/
  digest : Vector Byte 24
  /-- COST_CTR (R35) -/
  costCtr : Word
  /-- STATUS bit 1, DONE (R36) -/
  done : Bool
  /-- STATUS bit 3, MATCH (R36) -/
  matched : Bool
  /-- STATUS bit 4, WERR (R36) -/
  werr : Bool
  /-- STATUS bits 15:8, ERR (R36) -/
  err : ErrorCode
  /-- STATUS bits 23:16, LAST_OP (R36) -/
  lastOp : Byte
  /-- PEND: the command word waiting for its completion step (R39) -/
  pend : Option Word
  /-- Model's own: which instance's free values these are (log 3). -/
  drawStream : Nat
  /-- Model's own: draws the random-byte port has answered (log 3). -/
  rngDraws : Nat
  /-- Model's own: reads that met BUSY = 1 (log 4). -/
  busyReads : Nat
  deriving DecidableEq, Repr

/-- The names of the register map (10_state.md R40) that a host program uses (30_encoding.md R120). -/
inductive Reg where
  | id | cmd | status | dataL | dataR | cost | minor | keyLen | strInLen | strOutLen | bytesLen
  | costCtr | key | salt | digest | bytes | strIn | strOut | p
  | s (box : Fin 4)
  /-- an offset written as a number -/
  | raw (offset : Nat)
  deriving DecidableEq, Repr

/-- A literal or a host name (R120). Host names are numbered; their values are "unbounded host-side
integers". -/
inductive HostValue where
  | lit (n : Int)
  | name (x : Nat)
  deriving DecidableEq, Repr

/-- A line of a host program (R120). `wr r k w v` is MemWrite(WINDOW_BASE + offset(r) + 4·k, w, v) and
`rd r k w x` is MemRead of that address, binding the result to the name `x`; the notation's own lines
have width 4 (R71). -/
inductive HostLine where
  | label (l : Nat)
  | wr (r : Reg) (index : HostValue) (width : Nat) (v : HostValue)
  | rd (r : Reg) (index : HostValue) (width : Nat) (x : Nat)
  | bnz (x : Nat) (mask : Nat) (l : Nat)
  | dec (x : Nat)
  | set (x : Nat) (n : Int)
  | bnez (x : Nat) (l : Nat)
  deriving DecidableEq, Repr

/-- The bindings of a host's names: name and value, names strictly rising. -/
abbrev HostEnv := List (Nat × Int)

/-- A host (00_scope.md R16): its program, the line it is at, and its names. -/
structure HostAgent where
  prog : List HostLine
  line : Nat
  env : HostEnv
  deriving DecidableEq, Repr

/-- A choice of the scheduler (60_exceptions.md R296): host `k` takes its next line, the engine takes
its completion step, or the platform asserts RESET. -/
inductive Turn where
  | host (k : Nat)
  | engine
  | reset
  deriving DecidableEq, Repr

structure State where
  /-- the instance -/
  eng : Engine
  /-- the hosts that share its port (20_memory.md R81) -/
  hosts : List HostAgent
  /-- the scheduler's next choices, first one first (log 5) -/
  turns : List Turn
  deriving DecidableEq, Repr

/-- What stops the machine. The block itself has no trap and no access fault (60_exceptions.md R297,
R305): both are host programs that the notation of 30_encoding.md R120 gives no meaning. -/
inductive Fault where
  /-- Raised by a host line that reads a host name nothing has bound. Safe: the run stops. -/
  | hostNameUnbound (x : Nat)
  /-- Raised by a host branch to a label its program does not hold. Safe: the run stops. -/
  | hostLabelUnknown (l : Nat)
  deriving DecidableEq, Repr

/-- What the model gives no meaning. -/
inductive Refusal where
  /-- An instruction without a meaning, by name. No arm of `exec` raises it. Safe. -/
  | notModelled (mnemonic : String)
  /-- Raised by a host access of a width other than 4 bytes, which "the model refuses" (20_memory.md
  R71). Safe. -/
  | accessWidth (width : Nat)
  /-- Raised by a host access outside the register window: the platform decides what is there
  (20_memory.md R77). Safe. -/
  | outsideWindow (address : Int)
  deriving DecidableEq, Repr

/-- The result of a step of this machine. -/
abbrev Result := Host.Outcome State Fault Refusal

/-- P and S with every word 0. -/
def CipherState.zero : CipherState :=
  ⟨Vector.replicate 18 0#32, Vector.replicate 4 (Vector.replicate 256 0#32)⟩

/-- The reset values of 10_state.md R40 and 70_reset_and_hazards.md R320, R321. P and S are unspecified
there and zero here, which R320 allows (DESIGN CHOICE, log 1); the model's own fields are zero (DESIGN
CHOICE, logs 3 and 4). -/
def Engine.reset : Engine where
  cipher := CipherState.zero
  stateValid := false
  dataL := 0
  dataR := 0
  cost := 0
  minor := 0
  key := Vector.replicate _ 0
  keyLen := 0
  salt := Vector.replicate _ 0
  bytes := Vector.replicate _ 0
  bytesLen := 0
  strIn := Vector.replicate _ 0
  strInLen := 0
  strOut := Vector.replicate _ 0
  strOutLen := 0
  digest := Vector.replicate _ 0
  costCtr := 0
  done := false
  matched := false
  werr := false
  err := .none
  lastOp := 0
  pend := none
  drawStream := 0
  rngDraws := 0
  busyReads := 0

/-- The machine right after reset: the reset instance, no host program loaded and no choice of the
scheduler made (DESIGN CHOICE, logs 5 and 6). -/
def State.reset : State := ⟨Engine.reset, [], []⟩

end Sys2Proof.Machine
end

