-- ==== Sys2Proof/Machine/Ops.lean ====
section
/-! DEFINITION. Operations the command families share: byte order, buffer fills, cipher-state words,
repetition, and how a command ends, with or without an error. -/

namespace Sys2Proof.Machine

/-! ## Bytes and words -/

/-- `BE32(b0, b1, b2, b3)`: the first byte is the most significant (20_memory.md R74). -/
def be32 (b0 b1 b2 b3 : Byte) : Word := b0 ++ b1 ++ b2 ++ b3

/-- `BYTES_BE(w)`: the most significant byte first (R74). -/
def bytesBE (w : Word) : List Byte :=
  [w.extractLsb' 24 8, w.extractLsb' 16 8, w.extractLsb' 8 8, w.extractLsb' 0 8]

/-- The byte of a character code (00_scope.md R10). -/
def chr (c : Char) : Byte := BitVec.ofNat 8 c.toNat

/-- A list of a buffer's capacity: `l` from index 0 on, zero after it, cut at the capacity. -/
def padList (n : Nat) (l : List Byte) : List Byte := l.take n ++ List.replicate (n - l.length) 0

theorem padList_length (n : Nat) (l : List Byte) : (padList n l).length = n := by
  simp [padList]; omega

/-- A buffer holding `l` from index 0 on and zero in every byte after it (10_state.md R31, R33). -/
def padTo (n : Nat) (l : List Byte) : Vector Byte n := ⟨(padList n l).toArray, by simp [padList_length]⟩

/-- The first `n` bytes of a buffer, `B[0..n)` (00_scope.md R9). -/
def firstBytes {cap : Nat} (b : Vector Byte cap) (n : Nat) : List Byte := b.toList.take n

/-- `n` applications of `f`: the fixed repetitions of 40 to 43 (R180, R251). -/
def iterate {α : Type} (f : α → α) : Nat → α → α
  | 0, x => x
  | n + 1, x => iterate f n (f x)

/-! ## Words of the cipher state -/

/-- `P[i]` (00_scope.md R11). -/
def CipherState.getP (c : CipherState) (i : Fin 18) : Word := c.p.get i

/-- `P[i] <- v`. -/
def CipherState.setP (c : CipherState) (i : Fin 18) (v : Word) : CipherState :=
  { c with p := c.p.set i v }

/-- `S[b][j]`. -/
def CipherState.getS (c : CipherState) (b : Fin 4) (j : Fin 256) : Word :=
  (c.s.get b).get j

/-- `S[b][j] <- v`. -/
def CipherState.setS (c : CipherState) (b : Fin 4) (j : Fin 256) (v : Word) :
    CipherState :=
  { c with s := c.s.set b ((c.s.get b).set j v) }

/-! ## How a command ends -/

/-- The end of every completion step (10_state.md R44): PEND <- none (so BUSY = 0), DONE <- 1, ERR <- the
command's error code. -/
def Engine.finish (e : Engine) (code : ErrorCode) : Engine :=
  { e with pend := none, done := true, err := code }

/-- `raise Error(code)`, the whole of error entry (60_exceptions.md R284, R286, R297): the state as at
issue, ended with the code. There is no vector, no saved state and no return (R297, R298). -/
def raiseError (code : ErrorCode) (s : State) : State := { s with eng := s.eng.finish code }

/-- A command ends: with all of its writes at once and code 0 (R44; 20_memory.md R80), or with its first
error and none of them (R286). -/
def complete (s : State) (body : Except ErrorCode Engine) : Result :=
  match body with
  | .ok e => .next { s with eng := e.finish .none }
  | .error code => .next (raiseError code s)

/-- The results of P and S: a new cipher state and STATE_VALID. -/
def Engine.withCipher (e : Engine) (c : CipherState) (valid : Bool) : Engine :=
  { e with cipher := c, stateValid := valid }

/-- Discarding the state: P and S zero, STATE_VALID 0 (40_blowfish.md R152; 43_bcrypt.md R254, R255). -/
def Engine.discard (e : Engine) : Engine := e.withCipher CipherState.zero false

/-- The one way a result reaches STR_OUT (10_state.md R33). -/
def Engine.putStrOut (e : Engine) (out : List Byte) : Engine :=
  { e with strOut := padTo 64 out, strOutLen := BitVec.ofNat 8 out.length }

/-- The one way a result reaches BYTES (10_state.md R31). -/
def Engine.putBytes (e : Engine) (out : List Byte) : Engine :=
  { e with bytes := padTo 48 out, bytesLen := BitVec.ofNat 8 out.length }

end Sys2Proof.Machine
end

