-- ==== Sys2Proof/Machine/Flags.lean ====
section
/-! DEFINITION. STATUS (10_state.md R36) and what issuing a command does to it (R41). -/

namespace Sys2Proof.Machine

/-- The code table of STATUS.ERR (60_exceptions.md R281). -/
def ErrorCode.code : ErrorCode → Byte
  | .none => 0
  | .invalidSalt => 1
  | .invalidSaltVersion => 2
  | .invalidSaltFormat => 3
  | .roundsExceeded => 4
  | .boundedLengthExceeded => 5
  | .roundsBelowMinimum => 6
  | .r64InvalidChar => 7
  | .r64InvalidLength => 8
  | .stateNotInitialized => 9
  | .illegalCommand => 10
  | .lengthMismatch => 11

/-- BUSY: 1 exactly when PEND ≠ none (10_state.md R39). -/
def Engine.busy (e : Engine) : Bool := e.pend.isSome

/-- The STATUS word, by its table of fields (R36); reserved bits read 0. -/
def Engine.statusWord (e : Engine) : Word :=
  0#8 ++ e.lastOp ++ e.err.code ++ 0#3 ++ BitVec.ofBool e.werr ++ BitVec.ofBool e.matched ++
    BitVec.ofBool e.stateValid ++ BitVec.ofBool e.done ++ BitVec.ofBool e.busy

/-- A host write to STATUS, busy or not: only bit 4 acts, clearing WERR (R36). -/
def Engine.writeStatus (e : Engine) (v : Word) : Engine :=
  { e with werr := e.werr && !v.getLsbD 4 }

/-- Whether issuing the opcode zeroes COST_CTR: EKS_SETUP, BC_HASH, BC_CHECK (R35, R41). -/
def clearsCostCtr (op : Byte) : Bool := op == 0x13#8 || op == 0x31#8 || op == 0x32#8

/-- Issue of the word `w` (R41). Validity is not checked here. -/
def Engine.issue (e : Engine) (w : Word) : Engine :=
  { e with
    pend := some w
    done := false
    matched := false
    err := .none
    lastOp := opField w
    costCtr := if clearsCostCtr (opField w) then 0 else e.costCtr }

end Sys2Proof.Machine
end

