-- ==== Sys2Proof/Machine/Operands.lean ====
section
/-! DEFINITION. Operand forms: the strings and lengths a command reads (30_encoding.md R101; 20_memory.md
R87), and the words of the register window (10_state.md R40; 20_memory.md R70 to R73). -/

namespace Sys2Proof.Machine

/-! ## Operands of commands -/

/-- `KEY[0..KEY_LEN)` (10_state.md R28). -/
def Engine.password (e : Engine) : List Byte := firstBytes e.key e.keyLen.toNat

/-- `PwKey = KEY[0..KEY_LEN) ‖ 0x00` (41_eks_schedule.md R171). -/
def Engine.pwKey (e : Engine) : List Byte := e.password ++ [0]

/-- `STR_IN[0..STR_IN_LEN)` (10_state.md R32). -/
def Engine.strInText (e : Engine) : List Byte := firstBytes e.strIn e.strInLen.toNat

/-- `BYTES[0..BYTES_LEN)` (10_state.md R31). -/
def Engine.bytesText (e : Engine) : List Byte := firstBytes e.bytes e.bytesLen.toNat

/-- `KEY_LEN > 72` (60_exceptions.md R282). -/
def Engine.keyTooLong (e : Engine) : Bool := decide (Config.keyLimit < e.keyLen.toNat)

/-- `STR_IN_LEN > limit`: 64 for the codec, 60 for salt and hash strings (R282). -/
def Engine.strInTooLong (e : Engine) (limit : Nat) : Bool := decide (limit < e.strInLen.toNat)

/-- `BYTES_LEN > 48` (R282). -/
def Engine.bytesTooLong (e : Engine) : Bool := decide (Config.bytesLimit < e.bytesLen.toNat)

/-! ## Words of the window -/

/-- What stands at a word offset of the window (10_state.md R40, R45). -/
inductive Target where
  | id | cmd | status | dataL | dataR | cost | minor | keyLen | strInLen | strOutLen | bytesLen
  | costCtr
  | keyWord (k : Nat) | saltWord (k : Nat) | digestWord (k : Nat) | bytesWord (k : Nat)
  | strInWord (k : Nat) | strOutWord (k : Nat)
  | pWord (i : Nat)
  | sWord (b j : Nat)
  | reserved
  deriving DecidableEq, Repr

/-- The word offset an address reaches: `addr[12:2]·4` (20_memory.md R72). -/
def wordOffset (addr : Nat) : Nat := addr / 4 % 2048 * 4

/-- The register map (10_state.md R40, R45), on word offsets. -/
def targetOf (off : Nat) : Target :=
  if off = 0x0000 then .id
  else if off = 0x0004 then .cmd
  else if off = 0x0008 then .status
  else if off = 0x000C then .dataL
  else if off = 0x0010 then .dataR
  else if off = 0x0014 then .cost
  else if off = 0x0018 then .minor
  else if off = 0x001C then .keyLen
  else if off = 0x0020 then .strInLen
  else if off = 0x0024 then .strOutLen
  else if off = 0x0028 then .bytesLen
  else if off = 0x002C then .costCtr
  else if 0x0040 ≤ off ∧ off ≤ 0x0087 then .keyWord ((off - 0x0040) / 4)
  else if 0x0090 ≤ off ∧ off ≤ 0x009F then .saltWord ((off - 0x0090) / 4)
  else if 0x00A0 ≤ off ∧ off ≤ 0x00B7 then .digestWord ((off - 0x00A0) / 4)
  else if 0x00C0 ≤ off ∧ off ≤ 0x00EF then .bytesWord ((off - 0x00C0) / 4)
  else if 0x0100 ≤ off ∧ off ≤ 0x013F then .strInWord ((off - 0x0100) / 4)
  else if 0x0140 ≤ off ∧ off ≤ 0x017F then .strOutWord ((off - 0x0140) / 4)
  else if 0x0400 ≤ off ∧ off ≤ 0x0447 then .pWord ((off - 0x0400) / 4)
  else if 0x1000 ≤ off ∧ off ≤ 0x1FFF then .sWord ((off - 0x1000) / 0x400) ((off - 0x1000) % 0x400 / 4)
  else .reserved

/-- Byte `i` of a buffer. -/
def byteAt {cap : Nat} (b : Vector Byte cap) (i : Nat) : Byte := b.toList.getD i 0

/-- A buffer word: bytes 4k to 4k+3, big-endian (20_memory.md R73). -/
def loadWord {cap : Nat} (b : Vector Byte cap) (k : Nat) : Word :=
  be32 (byteAt b (4 * k)) (byteAt b (4 * k + 1)) (byteAt b (4 * k + 2)) (byteAt b (4 * k + 3))

/-- A write of a buffer word stores all four bytes (R73). -/
def storeWord {cap : Nat} (b : Vector Byte cap) (k : Nat) (v : Word) : Vector Byte cap :=
  (((b.setIfInBounds (4 * k) (v.extractLsb' 24 8)).setIfInBounds (4 * k + 1) (v.extractLsb' 16 8)).setIfInBounds
    (4 * k + 2) (v.extractLsb' 8 8)).setIfInBounds (4 * k + 3) (v.extractLsb' 0 8)

/-- What ID reads, "BCRY" (10_state.md R37). -/
def idWord : Word := 0x42435259

/-- What a read of the window returns when its value is defined (10_state.md R24, R40, R45, R46). Narrow
registers are zero-extended (20_memory.md R71). -/
def Engine.load (e : Engine) : Target → Word
  | .id => idWord
  | .cmd => 0
  | .status => e.statusWord
  | .dataL => e.dataL
  | .dataR => e.dataR
  | .cost => e.cost.setWidth 32
  | .minor => e.minor.setWidth 32
  | .keyLen => e.keyLen.setWidth 32
  | .strInLen => e.strInLen.setWidth 32
  | .strOutLen => e.strOutLen.setWidth 32
  | .bytesLen => e.bytesLen.setWidth 32
  | .costCtr => e.costCtr
  | .keyWord k => loadWord e.key k
  | .saltWord k => loadWord e.salt k
  | .digestWord k => loadWord e.digest k
  | .bytesWord k => loadWord e.bytes k
  | .strInWord k => loadWord e.strIn k
  | .strOutWord k => loadWord e.strOut k
  | .pWord i => if e.stateValid then e.cipher.p.toList.getD i 0 else 0
  | .sWord b j =>
    if e.stateValid then ((e.cipher.s.toList.map Vector.toList).getD b []).getD j 0 else 0
  | .reserved => 0

/-- What a write of the window does while BUSY = 0, STATUS apart (10_state.md R46): a read-write register
or buffer word is stored, CMD issues, everything else is ignored. -/
def Engine.store (e : Engine) (t : Target) (v : Word) : Engine :=
  match t with
  | .cmd => e.issue v
  | .dataL => { e with dataL := v }
  | .dataR => { e with dataR := v }
  | .cost => { e with cost := v.setWidth 8 }
  | .keyLen => { e with keyLen := v.setWidth 8 }
  | .strInLen => { e with strInLen := v.setWidth 8 }
  | .bytesLen => { e with bytesLen := v.setWidth 8 }
  | .keyWord k => { e with key := storeWord e.key k v }
  | .saltWord k => { e with salt := storeWord e.salt k v }
  | .bytesWord k => { e with bytes := storeWord e.bytes k v }
  | .strInWord k => { e with strIn := storeWord e.strIn k v }
  | .id | .status | .minor | .strOutLen | .costCtr | .digestWord _ | .strOutWord _ | .pWord _
  | .sWord _ _ | .reserved => e

end Sys2Proof.Machine
end

