-- ==== Sys2Proof/Machine/Blowfish.lean ====
section
/-! DEFINITION. The Blowfish engine (40_blowfish.md): F, the round, Encrypt, and the BF_* commands. -/

namespace Sys2Proof.Machine

/-- `F(x)` (R140). -/
def CipherState.f (c : CipherState) (x : Word) : Word :=
  ((c.getS 0 (x.extractLsb' 24 8).toFin + c.getS 1 (x.extractLsb' 16 8).toFin) ^^^
    c.getS 2 (x.extractLsb' 8 8).toFin) + c.getS 3 (x.extractLsb' 0 8).toFin

/-- Feistel round `i` on the halves (L, R) (R141). -/
def CipherState.round (c : CipherState) (i : Fin 16) (lr : Word × Word) : Word × Word :=
  let l := lr.1 ^^^ c.getP (i.castLE (by decide))
  let r := lr.2 ^^^ c.f l
  (r, l)

/-- `Encrypt(L, R)` (R142): 16 rounds, the half-swap undone, then P[16] into R and P[17] into L. -/
def CipherState.encrypt (c : CipherState) (lr : Word × Word) : Word × Word :=
  let x := (List.finRange 16).foldl (fun x i => c.round i x) lr
  (x.2 ^^^ c.getP 17, x.1 ^^^ c.getP 16)

/-! ## Commands -/

/-- BF_INIT (R150). -/
def bfInit (e : Engine) : Except ErrorCode Engine := .ok (e.withCipher seed true)

/-- BF_ENCRYPT (R151). -/
def bfEncrypt (e : Engine) : Except ErrorCode Engine :=
  if e.stateValid = false then .error .stateNotInitialized
  else
    let out := e.cipher.encrypt (e.dataL, e.dataR)
    .ok { e with dataL := out.1, dataR := out.2 }

/-- BF_DISCARD (R152). -/
def bfDiscard (e : Engine) : Except ErrorCode Engine := .ok e.discard

def execBfInit (s : State) : Result := complete s (bfInit s.eng)

def execBfEncrypt (s : State) : Result := complete s (bfEncrypt s.eng)

def execBfDiscard (s : State) : Result := complete s (bfDiscard s.eng)

end Sys2Proof.Machine
end

