-- ==== Sys2Proof/Machine/Eks.lean ====
section
/-! DEFINITION. The Eks-Blowfish key schedule (41_eks_schedule.md): streams, ExpandKey, the cost loop,
and the EKS_* commands. -/

namespace Sys2Proof.Machine

/-- `StreamWord(D, p)` (R170): the big-endian word at position `p` of the cyclic stream over `d`, and the
next position. -/
def streamWord (d : List Byte) (p : Nat) : Word × Nat :=
  let b (k : Nat) : Byte := d.getD ((p + k) % d.length) 0
  (be32 (b 0) (b 1) (b 2) (b 3), (p + 4) % d.length)

/-- Phase 1 of ExpandKey (R172): 18 key words into P. -/
def keyIntoP (key : List Byte) (c : CipherState) : CipherState :=
  ((List.finRange 18).foldl
    (fun (x : CipherState × Nat) i =>
      let w := streamWord key x.2
      (x.1.setP i (x.1.getP i ^^^ w.1), w.2))
    (c, 0)).1

/-- The values of phase 2 of ExpandKey (R172): the cipher state as the steps before have left it, the
chained running block and the position in the salt stream. -/
structure Running where
  c : CipherState
  l : Word
  r : Word
  sp : Nat
  deriving DecidableEq, Repr

/-- The salt mixing of `step()` (R172): the next two salt words into the running block. With an empty
salt nothing is mixed (R173). -/
def Running.mixSalt (salt : Option (List Byte)) (x : Running) : Running :=
  match salt with
  | none => x
  | some d =>
    let w0 := streamWord d x.sp
    let w1 := streamWord d w0.2
    { x with l := x.l ^^^ w0.1, r := x.r ^^^ w1.1, sp := w1.2 }

/-- `step()` (R172): mix, then Encrypt on the current P and S. -/
def Running.step (salt : Option (List Byte)) (x : Running) : Running :=
  let m := x.mixSalt salt
  let out := m.c.encrypt (m.l, m.r)
  { m with l := out.1, r := out.2 }

/-- One step, its block written to P[2k], P[2k+1]. -/
def Running.stepP (salt : Option (List Byte)) (x : Running) (k : Fin 9) : Running :=
  let y := x.step salt
  { y with c := (y.c.setP ⟨2 * k.val, by omega⟩ y.l).setP ⟨2 * k.val + 1, by omega⟩ y.r }

/-- One step, its block written to S[b][2k], S[b][2k+1]. -/
def Running.stepS (salt : Option (List Byte)) (b : Fin 4) (x : Running) (k : Fin 128) :
    Running :=
  let y := x.step salt
  { y with c := (y.c.setS b ⟨2 * k.val, by omega⟩ y.l).setS b ⟨2 * k.val + 1, by omega⟩ y.r }

/-- Phase 2 over P, then over S0 to S3 (R172). -/
def overwrite (salt : Option (List Byte)) (c : CipherState) : Running :=
  let x := (List.finRange 9).foldl (Running.stepP salt) ⟨c, 0, 0, 0⟩
  (List.finRange 4).foldl
    (fun x b => (List.finRange 128).foldl (Running.stepS salt b) x) x

/-- `ExpandKey(salt, key)` (R172); `none` is the empty salt ∅. -/
def expandKey (salt : Option (List Byte)) (key : List Byte) (c : CipherState) : CipherState :=
  (overwrite salt (keyIntoP key c)).c

/-- One iteration of the cost loop and its count (R180): re-key with the password, then with the salt
as the 16 bytes themselves; neither mixes a salt (90_conflicts.md C4). -/
def costStep (pwKey salt : List Byte) (x : CipherState × Word) : CipherState × Word :=
  (expandKey none salt (expandKey none pwKey x.1), x.2 + 1)

/-- `EksSetup(salt16, cost)` (R180): the keyed state and COST_CTR, which counts completed iterations. -/
def eksSetupState (pwKey salt : List Byte) (cost : Nat) : CipherState × Word :=
  iterate (costStep pwKey salt) (2 ^ cost) (expandKey (some salt) pwKey seed, 0)

/-- The cost checks of EKS_SETUP and SALT_GEN, in order (R184; 42_codec.md R226, R227). -/
def costError (cost : Byte) : Option ErrorCode :=
  if Config.maxCost < cost.toNat then some .roundsExceeded
  else if cost.toNat < Config.minCost then some .roundsBelowMinimum
  else none

/-! ## Commands -/

/-- EKS_EXPAND_SK (R181). -/
def eksExpandSk (e : Engine) : Except ErrorCode Engine :=
  if e.keyTooLong then .error .boundedLengthExceeded
  else if e.stateValid = false then .error .stateNotInitialized
  else .ok { e with cipher := expandKey (some e.salt.toList) e.pwKey e.cipher }

/-- EKS_EXPAND_K (R182). -/
def eksExpandK (e : Engine) : Except ErrorCode Engine :=
  if e.keyTooLong then .error .boundedLengthExceeded
  else if e.stateValid = false then .error .stateNotInitialized
  else .ok { e with cipher := expandKey none e.pwKey e.cipher }

/-- EKS_EXPAND_S (R183): the 16 salt bytes as the key, no zero byte appended. -/
def eksExpandS (e : Engine) : Except ErrorCode Engine :=
  if e.stateValid = false then .error .stateNotInitialized
  else .ok { e with cipher := expandKey none e.salt.toList e.cipher }

/-- EKS_SETUP (R184). -/
def eksSetup (e : Engine) : Except ErrorCode Engine :=
  if e.keyTooLong then .error .boundedLengthExceeded
  else match costError e.cost with
    | some code => .error code
    | none =>
      let x := eksSetupState e.pwKey e.salt.toList e.cost.toNat
      .ok { e.withCipher x.1 true with costCtr := x.2 }

def execEksExpandSk (s : State) : Result := complete s (eksExpandSk s.eng)

def execEksExpandK (s : State) : Result := complete s (eksExpandK s.eng)

def execEksExpandS (s : State) : Result := complete s (eksExpandS s.eng)

def execEksSetup (s : State) : Result := complete s (eksSetup s.eng)

end Sys2Proof.Machine
end

