-- ==== Sys2Proof/Machine/Codec.lean ====
section
/-! DEFINITION. The radix-64 codec, the alphabet translator and the salt codec (42_codec.md; the tables
and formats of 30_encoding.md R110 to R117). -/

namespace Sys2Proof.Machine

/-! ## Alphabets -/

/-- `n` characters from `c` on. -/
def charRange (c : Char) (n : Nat) : List Byte := (List.range n).map fun k => chr c + BitVec.ofNat 8 k

/-- `BC_ALPHA`: "bcrypt: `./A-Za-z0-9`" (30_encoding.md R110). -/
def bcAlpha : List Byte := [chr '.', chr '/'] ++ charRange 'A' 26 ++ charRange 'a' 26 ++ charRange '0' 10

/-- `STD_ALPHA`: "standard: `A-Za-z0-9+/`" (R111). -/
def stdAlpha : List Byte := charRange 'A' 26 ++ charRange 'a' 26 ++ charRange '0' 10 ++ [chr '+', chr '/']

/-- The value of a character in an alphabet, if it is there. -/
def valueIn (alpha : List Byte) (c : Byte) : Option Nat := alpha.idxOf? c

/-- The character of a 6-bit value. -/
def charOf (alpha : List Byte) (v : Nat) : Byte := alpha.getD v 0

/-- The translation of one string from one alphabet to the other, index by index (R112): every
character is looked up before any output is given (42_codec.md R200). -/
def translate (src dst : List Byte) : List Byte → Except ErrorCode (List Byte)
  | [] => .ok []
  | c :: t =>
    match valueIn src c, translate src dst t with
    | some v, .ok out => .ok (charOf dst v :: out)
    | _, _ => .error .r64InvalidChar

/-- `ToBcrypt(t)` (R200). -/
def toBcrypt (t : List Byte) : Except ErrorCode (List Byte) := translate stdAlpha bcAlpha t

/-- `ToStd(t)` (R201). -/
def toStd (t : List Byte) : Except ErrorCode (List Byte) := translate bcAlpha stdAlpha t

/-! ## Radix-64 -/

/-- The bcrypt character of bits `lo+5:lo` of a 24-bit group (R113). -/
def groupChar (g lo : Nat) : Byte := charOf bcAlpha (g / 2 ^ lo % 64)

/-- `R64Encode(b)` (R202): groups of three bytes, the last one padded with zero bytes to make its
characters, no padding character. -/
def r64Encode : List Byte → List Byte
  | [] => []
  | [b0] =>
    let g := b0.toNat * 2 ^ 16
    [groupChar g 18, groupChar g 12]
  | [b0, b1] =>
    let g := b0.toNat * 2 ^ 16 + b1.toNat * 2 ^ 8
    [groupChar g 18, groupChar g 12, groupChar g 6]
  | b0 :: b1 :: b2 :: rest =>
    let g := b0.toNat * 2 ^ 16 + b1.toNat * 2 ^ 8 + b2.toNat
    groupChar g 18 :: groupChar g 12 :: groupChar g 6 :: groupChar g 0 :: r64Encode rest

/-- Byte `hi:hi-7` of a 24-bit group, `lo` its lowest bit. -/
def groupByte (g lo : Nat) : Byte := BitVec.ofNat 8 (g / 2 ^ lo)

/-- The groups of `R64Decode` on the characters' values (R203): missing characters count as 0, unused low
bits are discarded. A group of one character does not occur, its length being refused before. -/
def decodeGroups : List Nat → List Byte
  | [] => []
  | [_] => []
  | [v0, v1] =>
    let g := v0 * 2 ^ 18 + v1 * 2 ^ 12
    [groupByte g 16]
  | [v0, v1, v2] =>
    let g := v0 * 2 ^ 18 + v1 * 2 ^ 12 + v2 * 2 ^ 6
    [groupByte g 16, groupByte g 8]
  | v0 :: v1 :: v2 :: v3 :: rest =>
    let g := v0 * 2 ^ 18 + v1 * 2 ^ 12 + v2 * 2 ^ 6 + v3
    groupByte g 16 :: groupByte g 8 :: groupByte g 0 :: decodeGroups rest

/-- The values of a string's characters in BC_ALPHA, if all are there. -/
def bcValues : List Byte → Option (List Nat)
  | [] => some []
  | c :: t =>
    match valueIn bcAlpha c, bcValues t with
    | some v, some vs => some (v :: vs)
    | _, _ => none

/-- `R64Decode(t)` (R203): the length is checked before the characters. -/
def r64Decode (t : List Byte) : Except ErrorCode (List Byte) :=
  if t.length % 4 = 1 then .error .r64InvalidLength
  else match bcValues t with
    | none => .error .r64InvalidChar
    | some vs => .ok (decodeGroups vs)

/-! ## Salt strings -/

/-- `Dec2(c)` (30_encoding.md R117). -/
def dec2 (c : Nat) : List Byte :=
  [chr '0' + BitVec.ofNat 8 (c / 10), chr '0' + BitVec.ofNat 8 (c % 10)]

/-- An ASCII digit. -/
def isDigit (c : Byte) : Bool := decide ((chr '0').toNat ≤ c.toNat) && decide (c.toNat ≤ (chr '9').toNat)

/-- An accepted minor version: `a`, `b`, `x`, `y` (R222). -/
def isMinor (c : Byte) : Bool := c == chr 'a' || c == chr 'b' || c == chr 'x' || c == chr 'y'

/-- The value of two digit characters. -/
def digitsValue (c d : Byte) : Nat := 10 * (c.toNat - (chr '0').toNat) + (d.toNat - (chr '0').toNat)

/-- What parsing a salt string gives. -/
structure ParsedSalt where
  minor : Byte
  cost : Nat
  salt : Vector Byte 16
  deriving DecidableEq, Repr

/-- Stage 1, structure (R220). -/
def structureOk (s : List Byte) : Bool :=
  decide (7 ≤ s.length) && s.getD 3 0 == chr '$' && s.getD 6 0 == chr '$'

/-- Stage 2, version (R221). -/
def versionOk (s : List Byte) : Bool := s.getD 0 0 == chr '$' && s.getD 1 0 == chr '2'

/-- The cost field of a salt string (R222). -/
def costField (s : List Byte) : Nat := digitsValue (s.getD 4 0) (s.getD 5 0)

/-- Stage 3, format (R222). -/
def formatOk (s : List Byte) : Bool :=
  isMinor (s.getD 2 0) && isDigit (s.getD 4 0) && isDigit (s.getD 5 0) &&
    decide (Config.minCost ≤ costField s) && decide (costField s ≤ Config.maxCost)

/-- The salt field: the characters at indices 7 to 28 (30_encoding.md R115). -/
def saltField (s : List Byte) : List Byte := (s.drop 7).take Config.saltFieldLen

/-- `ParseSalt(s)` (R220 to R224): the stages in order, the first failure reported. -/
def parseSalt (s : List Byte) : Except ErrorCode ParsedSalt :=
  if structureOk s = false then .error .invalidSalt
  else if versionOk s = false then .error .invalidSaltVersion
  else if formatOk s = false then .error .invalidSaltFormat
  else if s.length < Config.saltStringLen then .error .invalidSalt
  else match r64Decode (saltField s) with
    | .error code => .error code
    | .ok b => .ok ⟨s.getD 2 0, costField s, padTo 16 b⟩

/-- An encoded salt (30_encoding.md R115): `$2`, the minor version, `$`, the cost, `$`, the salt field. -/
def saltString (minor : Byte) (cost : Nat) (salt : List Byte) : List Byte :=
  [chr '$', chr '2', minor, chr '$'] ++ dec2 cost ++ [chr '$'] ++ r64Encode salt

/-- `GenSalt(cost, salt16)` (R226): the minor version is always `b`. -/
def genSalt (cost : Byte) (salt : List Byte) : Except ErrorCode (List Byte) :=
  match costError cost with
  | some code => .error code
  | none => .ok (saltString (chr 'b') cost.toNat salt)

/-! ## Commands -/

/-- XLAT_TO_BCRYPT (R210). -/
def xlatToBcrypt (e : Engine) : Except ErrorCode Engine :=
  if e.strInTooLong Config.strLimit then .error .boundedLengthExceeded
  else match toBcrypt e.strInText with
    | .error code => .error code
    | .ok out => .ok (e.putStrOut out)

/-- XLAT_TO_STD (R211). -/
def xlatToStd (e : Engine) : Except ErrorCode Engine :=
  if e.strInTooLong Config.strLimit then .error .boundedLengthExceeded
  else match toStd e.strInText with
    | .error code => .error code
    | .ok out => .ok (e.putStrOut out)

/-- R64_ENCODE (R212). -/
def r64EncodeCmd (e : Engine) : Except ErrorCode Engine :=
  if e.bytesTooLong then .error .boundedLengthExceeded
  else .ok (e.putStrOut (r64Encode e.bytesText))

/-- R64_DECODE (R213). -/
def r64DecodeCmd (e : Engine) : Except ErrorCode Engine :=
  if e.strInTooLong Config.strLimit then .error .boundedLengthExceeded
  else match r64Decode e.strInText with
    | .error code => .error code
    | .ok out => .ok (e.putBytes out)

/-- SALT_PARSE (R225). -/
def saltParse (e : Engine) : Except ErrorCode Engine :=
  if e.strInTooLong Config.hashStringLen then .error .boundedLengthExceeded
  else match parseSalt e.strInText with
    | .error code => .error code
    | .ok r => .ok { e with minor := r.minor, cost := BitVec.ofNat 8 r.cost, salt := r.salt }

/-- One call of the random-byte port, `SALT <- RNG_DRAW(16)` (R227; 60_exceptions.md R300): a free value,
never the same draw twice (log 3). -/
def Engine.drawSalt (e : Engine) : Engine :=
  { e with salt := Config.rngDraw e.drawStream e.rngDraws, rngDraws := e.rngDraws + 1 }

/-- The body of SALT_GEN once its salt bytes are in SALT (R227). -/
def saltGenFrom (e : Engine) : Except ErrorCode Engine :=
  match genSalt e.cost e.salt.toList with
  | .error code => .error code
  | .ok out => .ok (e.putStrOut out)

/-- SALT_GEN (R227). With RNG = 1 the word is illegal where there is no port (60_exceptions.md R287), and
the cost is checked before the draw, so a failed command draws nothing. -/
def saltGen (rng : Bool) (e : Engine) : Except ErrorCode Engine :=
  match rng with
  | false => saltGenFrom e
  | true =>
    if Config.hasRng = false then .error .illegalCommand
    else match costError e.cost with
      | some code => .error code
      | none => saltGenFrom e.drawSalt

def execXlatToBcrypt (s : State) : Result := complete s (xlatToBcrypt s.eng)

def execXlatToStd (s : State) : Result := complete s (xlatToStd s.eng)

def execR64Encode (s : State) : Result := complete s (r64EncodeCmd s.eng)

def execR64Decode (s : State) : Result := complete s (r64DecodeCmd s.eng)

def execSaltGen (rng : Bool) (s : State) : Result := complete s (saltGen rng s.eng)

def execSaltParse (s : State) : Result := complete s (saltParse s.eng)

end Sys2Proof.Machine
end

