-- ==== Sys2Proof/Machine/Bcrypt.lean ====
section
/-! DEFINITION. The digest engine and the hash codec (43_bcrypt.md). -/

namespace Sys2Proof.Machine

/-- `CTEXT`, the 24 bytes of `OrpheanBeholderScryDoubt` (R250). -/
def ctext : List Byte :=
  [0x4F, 0x72, 0x70, 0x68, 0x65, 0x61, 0x6E, 0x42, 0x65, 0x68, 0x6F, 0x6C,
   0x64, 0x65, 0x72, 0x53, 0x63, 0x72, 0x79, 0x44, 0x6F, 0x75, 0x62, 0x74]

/-- The big-endian word `c_i` of CTEXT (R250). -/
def ctextWord (i : Nat) : Word :=
  be32 (ctext.getD (4 * i) 0) (ctext.getD (4 * i + 1) 0) (ctext.getD (4 * i + 2) 0) (ctext.getD (4 * i + 3) 0)

/-- Block `k` of CTEXT after its 64 passes (R251). -/
def digestBlock (c : CipherState) (k : Nat) : Word × Word :=
  iterate c.encrypt Config.passes (ctextWord (2 * k), ctextWord (2 * k + 1))

/-- `Digest()` (R251): 24 bytes. -/
def digestOf (c : CipherState) : List Byte :=
  [0, 1, 2].flatMap fun k => bytesBE (digestBlock c k).1 ++ bytesBE (digestBlock c k).2

/-- What HashString gives, with the number of cost-loop iterations it ran (R253; 10_state.md R35). -/
structure HashResult where
  text : List Byte
  costCtr : Word
  deriving DecidableEq, Repr

/-- `HashString(s)` (R253) for the password key `pwKey`. The salt field is encoded again from the decoded
bytes. -/
def hashString (pwKey s : List Byte) : Except ErrorCode HashResult :=
  match parseSalt s with
  | .error code => .error code
  | .ok r =>
    let x := eksSetupState pwKey r.salt.toList r.cost
    .ok ⟨saltString r.minor r.cost r.salt.toList ++ r64Encode ((digestOf x.1).take Config.digestEncoded), x.2⟩

/-! ## Commands -/

/-- BC_DIGEST (R252). -/
def bcDigest (e : Engine) : Except ErrorCode Engine :=
  if e.stateValid = false then .error .stateNotInitialized
  else .ok { e with digest := padTo 24 (digestOf e.cipher) }

/-- BC_HASH (R254). -/
def bcHash (e : Engine) : Except ErrorCode Engine :=
  if e.keyTooLong then .error .boundedLengthExceeded
  else if e.strInTooLong Config.hashStringLen then .error .boundedLengthExceeded
  else match hashString e.pwKey e.strInText with
    | .error code => .error code
    | .ok h => .ok ({ e.putStrOut h.text with costCtr := h.costCtr }.discard)

/-- BC_CHECK (R255), by the same HashString (R256). -/
def bcCheck (e : Engine) : Except ErrorCode Engine :=
  if e.keyTooLong then .error .boundedLengthExceeded
  else if e.strInTooLong Config.hashStringLen then .error .boundedLengthExceeded
  else match hashString e.pwKey (e.strInText.take Config.saltStringLen) with
    | .error code => .error code
    | .ok h =>
      .ok ({ e with
        matched := decide (e.strInText.length = Config.hashStringLen) && decide (h.text = e.strInText)
        costCtr := h.costCtr }.discard)

def execBcDigest (s : State) : Result := complete s (bcDigest s.eng)

def execBcHash (s : State) : Result := complete s (bcHash s.eng)

def execBcCheck (s : State) : Result := complete s (bcCheck s.eng)

end Sys2Proof.Machine
end

