-- ==== Sys2Proof/Machine/Dispatch.lean ====
section
/-! DEFINITION. One arm per command: the completion step of a decoded command (10_state.md R44). -/

namespace Sys2Proof.Machine

def exec (i : Instr) (s : State) : Host.Outcome State Fault Refusal :=
  match i with
  -- 40_blowfish.md
  | .bfInit => Sys2Proof.Machine.execBfInit s
  | .bfEncrypt => Sys2Proof.Machine.execBfEncrypt s
  | .bfDiscard => Sys2Proof.Machine.execBfDiscard s
  -- 41_eks_schedule.md
  | .eksExpandSk => Sys2Proof.Machine.execEksExpandSk s
  | .eksExpandK => Sys2Proof.Machine.execEksExpandK s
  | .eksExpandS => Sys2Proof.Machine.execEksExpandS s
  | .eksSetup => Sys2Proof.Machine.execEksSetup s
  -- 42_codec.md
  | .r64Encode => Sys2Proof.Machine.execR64Encode s
  | .r64Decode => Sys2Proof.Machine.execR64Decode s
  | .xlatToBcrypt => Sys2Proof.Machine.execXlatToBcrypt s
  | .xlatToStd => Sys2Proof.Machine.execXlatToStd s
  | .saltGen rng => Sys2Proof.Machine.execSaltGen rng s
  | .saltParse => Sys2Proof.Machine.execSaltParse s
  -- 43_bcrypt.md
  | .bcDigest => Sys2Proof.Machine.execBcDigest s
  | .bcHash => Sys2Proof.Machine.execBcHash s
  | .bcCheck => Sys2Proof.Machine.execBcCheck s

end Sys2Proof.Machine
end

