-- ==== Sys2Proof/Machine/HostPort.lean ====
section
/-! DEFINITION. The host port: MemRead and MemWrite on the register window (20_memory.md R70 to R81;
10_state.md R41 to R46), and RESET (70_reset_and_hazards.md R320). -/

namespace Sys2Proof.Machine

/-- `MemWrite(addr, 4, v)`: STATUS takes a write whether or not BUSY = 1 (R36); while BUSY = 1 a write to
any other offset only sets WERR (R42); else it stores or issues (R46). -/
def Engine.memWrite (e : Engine) (addr : Nat) (v : Word) : Engine :=
  let t := targetOf (wordOffset addr)
  if t = .status then e.writeStatus v
  else if e.busy then { e with werr := true }
  else e.store t v

/-- The offsets a read of which has its defined value while BUSY = 1 (R43). -/
def Target.definedWhileBusy : Target → Bool
  | .id | .cmd | .status => true
  | .dataL | .dataR | .cost | .minor | .keyLen | .strInLen | .strOutLen | .bytesLen | .costCtr
  | .keyWord _ | .saltWord _ | .digestWord _ | .bytesWord _ | .strInWord _ | .strOutWord _ | .pWord _
  | .sWord _ _ | .reserved => false

/-- `MemRead(addr, 4)`: the value, and the instance after the read. Only a read that meets BUSY = 1
elsewhere than at ID, CMD and STATUS is a free draw (R43); of the instance it moves the model's own count
of draws, and nothing else (R76; log 4). -/
def Engine.memRead (e : Engine) (addr : Nat) : Word × Engine :=
  let t := targetOf (wordOffset addr)
  if e.busy && !t.definedWhileBusy then
    (Config.busyRead e.drawStream e.busyReads, { e with busyReads := e.busyReads + 1 })
  else (e.load t, e)

/-- RESET (R320, R321): every register and buffer takes its reset value and a pending command is aborted.
The counts of the free values go on, so that a draw after a reset is a fresh one (log 10). -/
def Engine.applyReset (e : Engine) : Engine :=
  { Engine.reset with drawStream := e.drawStream, rngDraws := e.rngDraws, busyReads := e.busyReads }

end Sys2Proof.Machine
end

