-- ==== Sys2Proof/Machine/HostAgent.lean ====
section
/-! DEFINITION. The host agent: host programs in the notation of 30_encoding.md R120 to R125, run one line
a turn, and the scheduler's turns (60_exceptions.md R296; 70_reset_and_hazards.md R341). -/

namespace Sys2Proof.Machine

/-! ## Host names -/

/-- The names of `env` rise strictly: the one canonical form of a set of bindings. -/
def envSorted : HostEnv → Bool
  | [] => true
  | [_] => true
  | (x, _) :: (y, m) :: t => decide (x < y) && envSorted ((y, m) :: t)

/-- The value bound to a name. -/
def lookupName (env : HostEnv) (x : Nat) : Option Int :=
  match env with
  | [] => none
  | (y, n) :: t => if x = y then some n else lookupName t x

/-- Binding a name, in the canonical form. -/
def bindName (x : Nat) (n : Int) : HostEnv → HostEnv
  | [] => [(x, n)]
  | (y, m) :: t =>
    if x < y then (x, n) :: (y, m) :: t
    else if x = y then (x, n) :: t
    else (y, m) :: bindName x n t

/-- `<name> AND <mask>` on unbounded integers (R120): the mask's bits of the value in two's complement
(log 14). -/
def maskBits (n : Int) (mask : Nat) : Nat := (n % 2 ^ (mask.log2 + 1)).toNat &&& mask

/-! ## Host lines -/

/-- `offset(<reg>)` (R120; 10_state.md R40). -/
def Reg.offset : Reg → Nat
  | .id => 0x0000
  | .cmd => 0x0004
  | .status => 0x0008
  | .dataL => 0x000C
  | .dataR => 0x0010
  | .cost => 0x0014
  | .minor => 0x0018
  | .keyLen => 0x001C
  | .strInLen => 0x0020
  | .strOutLen => 0x0024
  | .bytesLen => 0x0028
  | .costCtr => 0x002C
  | .key => 0x0040
  | .salt => 0x0090
  | .digest => 0x00A0
  | .bytes => 0x00C0
  | .strIn => 0x0100
  | .strOut => 0x0140
  | .p => 0x0400
  | .s box => 0x1000 + 0x400 * box.val
  | .raw offset => offset

/-- The host after its line: the next line. -/
def HostAgent.advance (h : HostAgent) : HostAgent := { h with line := h.line + 1 }

/-- The host after binding `x`, at the next line. -/
def HostAgent.advanceBinding (h : HostAgent) (x : Nat) (n : Int) : HostAgent :=
  { h with line := h.line + 1, env := bindName x n h.env }

/-- What a line does to the host and the instance on its port, or why it has no meaning. -/
abbrev LineResult := Host.Outcome (HostAgent × Engine) Fault Refusal

/-- A value of the notation. -/
def HostAgent.withValue (h : HostAgent) (v : HostValue) (go : Int → LineResult) : LineResult :=
  match v with
  | .lit n => go n
  | .name x =>
    match lookupName h.env x with
    | some n => go n
    | none => .fault (.hostNameUnbound x)

/-- A branch to a label of the program (R120). To a label that stands twice it goes to the first occurrence, and
to one that stands nowhere it faults (DESIGN CHOICE: R120 is silent on both; log 14). -/
def HostAgent.jump (h : HostAgent) (l : Nat) (e : Engine) : LineResult :=
  match h.prog.idxOf? (.label l) with
  | some i => .next ({ h with line := i }, e)
  | none => .fault (.hostLabelUnknown l)

/-- The address a line accesses, `offset(r) + 4·k` from WINDOW_BASE, if the access is one the block
takes: 32 bits wide (20_memory.md R71) and inside the window (R70, R77). -/
def HostAgent.withAddress (h : HostAgent) (r : Reg) (index : HostValue) (width : Nat)
    (go : Nat → LineResult) : LineResult :=
  if width ≠ 4 then .refused (.accessWidth width)
  else h.withValue index fun k =>
    let a : Int := r.offset + 4 * k
    if 0 ≤ a ∧ a < Config.windowBytes then go a.toNat else .refused (.outsideWindow a)

/-- One line of a host program (R120). The value written is the low 32 bits of the host's integer (log 14). -/
def HostAgent.runLine (h : HostAgent) (e : Engine) : HostLine → LineResult
  | .label _ => .next (h.advance, e)
  | .wr r index width v =>
    h.withAddress r index width fun a =>
      h.withValue v fun n => .next (h.advance, e.memWrite a (BitVec.ofInt 32 n))
  | .rd r index width x =>
    h.withAddress r index width fun a =>
      .next (h.advanceBinding x (e.memRead a).1.toNat, (e.memRead a).2)
  | .bnz x mask l =>
    h.withValue (.name x) fun n => if maskBits n mask ≠ 0 then h.jump l e else .next (h.advance, e)
  | .dec x => h.withValue (.name x) fun n => .next (h.advanceBinding x (n - 1), e)
  | .set x n => .next (h.advanceBinding x n, e)
  | .bnez x l => h.withValue (.name x) fun n => if n ≠ 0 then h.jump l e else .next (h.advance, e)

/-- The line a host is at; none past the end of its program. -/
def HostAgent.current (h : HostAgent) : Option HostLine := h.prog[h.line]?

/-! ## Turns -/

/-- Host `k` takes its next line. A host that is not there, or past its end, does nothing. -/
def hostTurn (k : Nat) (s : State) : Result :=
  match s.hosts[k]? with
  | none => .next s
  | some h =>
    match h.current with
    | none => .next s
    | some line =>
      match h.runLine s.eng line with
      | .next x => .next { s with eng := x.2, hosts := s.hosts.set k x.1 }
      | .fault r => .fault r
      | .refused r => .refused r

/-- The platform asserts RESET: the instance is reset, hosts and turns are not part of the block (R320). -/
def resetTurn (s : State) : State := { s with eng := s.eng.applyReset }

/-- The first host with a line left, or the number of hosts. -/
def firstReady (hosts : List HostAgent) : Nat := hosts.findIdx fun h => h.current.isSome

/-- The turn taken once the list of choices is used up: a pending completion first, else a host (log 5). -/
def defaultTurn (s : State) : Turn := if s.eng.busy then .engine else .host (firstReady s.hosts)

/-- The next choice, and the state with that choice taken off the list. -/
def popTurn (s : State) : Turn × State :=
  match s.turns with
  | [] => (defaultTurn s, s)
  | t :: rest => (t, { s with turns := rest })

/-! ## Programs of the notation -/

/-- `WR <reg>, <value>` and `RD <reg> -> <name>` (R120). -/
def wr (r : Reg) (v : Int) : HostLine := .wr r (.lit 0) 4 (.lit v)
def rd (r : Reg) (x : Nat) : HostLine := .rd r (.lit 0) 4 x

/-- `CMD <mnemonic>` (R120). -/
def cmd (i : Instr) : HostLine := wr .cmd (encode i).toNat

/-- `WAIT` (R122), with its label and its name `st`. -/
def wait (l st : Nat) : List HostLine := [.label l, rd .status st, .bnz st 0x1 l]

/-- `RUN <mnemonic>[, RNG]` (R123). -/
def run (i : Instr) (l st : Nat) : List HostLine := cmd i :: wait l st

/-- The words that hold a byte string, the last one padded with zero bytes (R124; 20_memory.md R73). -/
def packWords : List Byte → List Word
  | [] => []
  | [b0] => [be32 b0 0 0 0]
  | [b0, b1] => [be32 b0 b1 0 0]
  | [b0, b1, b2] => [be32 b0 b1 b2 0]
  | b0 :: b1 :: b2 :: b3 :: rest => be32 b0 b1 b2 b3 :: packWords rest

/-- Writes of consecutive words of a buffer from word `k` on. -/
def wrWords (r : Reg) (k : Nat) : List Word → List HostLine
  | [] => []
  | w :: rest => .wr r (.lit k) 4 (.lit w.toNat) :: wrWords r (k + 1) rest

/-- `LOADKEY`, `LOADSTR`, `LOADBYTES`, `LOADSALT`, `SETCOST` (R124). -/
def loadKey (b : List Byte) : List HostLine := wrWords .key 0 (packWords b) ++ [wr .keyLen b.length]
def loadStr (b : List Byte) : List HostLine := wrWords .strIn 0 (packWords b) ++ [wr .strInLen b.length]
def loadBytes (b : List Byte) : List HostLine := wrWords .bytes 0 (packWords b) ++ [wr .bytesLen b.length]
def loadSalt (b : List Byte) : List HostLine := wrWords .salt 0 (packWords b)
def setCost (c : Nat) : HostLine := wr .cost c

/-- The operations surface (R125): `salt(cost, bytes)`, `salt(cost)`, `hash(pw, s)`, `check(pw, h)`. -/
def saltOp (cost : Nat) (b : List Byte) (l st : Nat) : List HostLine :=
  setCost cost :: loadSalt b ++ run (.saltGen false) l st
def saltRngOp (cost : Nat) (l st : Nat) : List HostLine := setCost cost :: run (.saltGen true) l st
def hashOp (pw s : List Byte) (l st : Nat) : List HostLine := loadKey pw ++ loadStr s ++ run .bcHash l st
def checkOp (pw h : List Byte) (l st : Nat) : List HostLine := loadKey pw ++ loadStr h ++ run .bcCheck l st

/-! ## Well-formed host programs -/

/-- A line of the notation: every access is 32 bits wide and every branch has its label. -/
def HostLine.wellFormedIn (prog : List HostLine) : HostLine → Bool
  | .wr _ _ width _ => width == 4
  | .rd _ _ width _ => width == 4
  | .bnz _ _ l => prog.contains (.label l)
  | .bnez _ l => prog.contains (.label l)
  | .label _ | .dec _ | .set _ _ => true

/-- A host program whose lines the notation of R120 gives a meaning, unbound names apart. A label may stand
twice (log 14). -/
def hostProgramWellFormed (prog : List HostLine) : Bool := prog.all (HostLine.wellFormedIn prog)

end Sys2Proof.Machine
end

