-- ==== Sys2Proof/Machine/Step.lean ====
section
/-! DEFINITION. One step of the machine: the agent whose turn it is moves (00_scope.md R16; 20_memory.md
R81; 60_exceptions.md R296). -/

namespace Sys2Proof.Machine

/-- The engine's completion step (10_state.md R44): enabled exactly when PEND ≠ none. It decodes the
pending word (30_encoding.md R103) and performs the command; an illegal word ends with code 10
(60_exceptions.md R287). -/
def engineTurn (s : State) : Host.Outcome State Fault Refusal :=
  match s.eng.pend with
  | none => .next s
  | some w =>
    match decode w with
    | .ok i => exec i s
    | .error _ => .next (raiseError .illegalCommand s)

/-- One step. -/
def step (s : State) : Host.Outcome State Fault Refusal :=
  match (popTurn s).1 with
  | .engine => engineTurn (popTurn s).2
  | .host k => hostTurn k (popTurn s).2
  | .reset => .next (resetTurn (popTurn s).2)

/-- The state in which the table's word has been issued, as a host's CMD write does (10_state.md R41), and
the next turn is the engine's (log 6). -/
def State.withFetchWord (s : State) (nbits w : Nat) : State :=
  { s with eng := s.eng.issue (tableWord nbits w), turns := .engine :: s.turns }

end Sys2Proof.Machine
end

