-- ==== Sys2Proof/Machine/Platform.lean ====
section
/-! DEFINITION. Several instances on one platform (60_exceptions.md R302; 92_eei_decisions.md D28): each
has its own full copy of the state and its own window; they share only the constants. -/

namespace Sys2Proof.Machine

/-- An instance in its place: its WINDOW_BASE (20_memory.md R70) and its machine. -/
structure Slot where
  base : Nat
  machine : State
  deriving DecidableEq, Repr

/-- The instances of a platform; N_ENGINES is their number (00_scope.md R7). -/
abbrev Platform := List Slot

/-- The platform decoder (20_memory.md R72): the address lies in the window of this slot. -/
def Slot.holds (slot : Slot) (addr : Nat) : Bool :=
  decide (slot.base ≤ addr) && decide (addr < slot.base + Config.windowBytes)

/-- A platform: at least one instance, every window on an 8 KiB boundary (log 8), no two windows at one
place, and every instance with free values of its own (log 13). -/
def Platform.wf (p : Platform) : Bool :=
  decide (1 ≤ p.length) && p.all (fun slot => slot.base % Config.windowBytes == 0) &&
    decide (p.map Slot.base).Nodup && decide (p.map fun slot => slot.machine.eng.drawStream).Nodup

/-- Instance `k` takes a step of its own. -/
def Platform.stepAt (p : Platform) (k : Nat) : Host.Outcome Platform Fault Refusal :=
  match p[k]? with
  | none => .next p
  | some slot =>
    match step slot.machine with
    | .next s => .next (p.set k { slot with machine := s })
    | .fault r => .fault r
    | .refused r => .refused r

/-- `MemWrite(addr, 4, v)` on a platform address: the instance whose window holds it takes the write. -/
def Platform.memWrite (p : Platform) (addr : Nat) (v : Word) : Platform :=
  p.map fun slot =>
    if slot.holds addr then
      { slot with machine := { slot.machine with eng := slot.machine.eng.memWrite addr v } }
    else slot

/-- `MemRead(addr, 4)` on a platform address: what the instance whose window holds it answers, and the
platform after the read; none where no window does. -/
def Platform.memRead (p : Platform) (addr : Nat) : Option (Word × Platform) :=
  (p.find? fun slot => slot.holds addr).map fun slot =>
    ((slot.machine.eng.memRead addr).1,
     p.map fun slot =>
      if slot.holds addr then
        { slot with machine := { slot.machine with eng := (slot.machine.eng.memRead addr).2 } }
      else slot)

end Sys2Proof.Machine
end

