-- ==== Sys2Proof/WellFormed.lean ====
section
/-! DEFINITION. Which commands an implementation has (30_encoding.md R103, third clause): every command,
but SALT_GEN with RNG = 1 only where the random-byte port is wired. -/

namespace Sys2Proof

/-- Legal on an implementation whose HAS_RNG is `hasRng`. -/
def Instr.wellFormedOn (hasRng : Bool) : Instr → Bool
  | .saltGen rng => !rng || hasRng
  | .bfInit | .bfEncrypt | .bfDiscard | .eksExpandSk | .eksExpandK | .eksExpandS | .eksSetup
  | .r64Encode | .r64Decode | .xlatToBcrypt | .xlatToStd | .saltParse | .bcDigest | .bcHash
  | .bcCheck => true

/-- Legal on this implementation. -/
def Instr.wellFormed (i : Instr) : Bool := i.wellFormedOn Config.hasRng

end Sys2Proof
end

