-- ==== Sys2Proof/Safety.lean ====
section
/-! DEFINITION. What claims are stated in: legal words, states derived from the seed, the invariant of a
run, and running a command or a list of commands. -/

namespace Sys2Proof.Machine

/-- The opcode column of 30_encoding.md R102. -/
def opcodes : List Byte :=
  [0x01, 0x02, 0x03, 0x10, 0x11, 0x12, 0x13, 0x20, 0x21, 0x22, 0x23, 0x24, 0x25, 0x30, 0x31, 0x32]

/-- A legal command word, in the words of R103. -/
def LegalWord (hasRng : Bool) (w : Word) : Prop :=
  w.extractLsb' 0 8 ∈ opcodes ∧ w.extractLsb' 9 23 = 0#23 ∧
    (w.getLsbD 8 = false ∨ (w.extractLsb' 0 8 = 0x24#8 ∧ hasRng = true))

/-- A cipher state "derived from the seed by the commands" (10_state.md R24): the seed, or what ExpandKey
makes of a derived state with an empty or a 16-byte salt and a nonempty key. -/
inductive SeedDerived : CipherState → Prop where
  | seed : SeedDerived Machine.seed
  | expand (salt : Option (List Byte)) (key : List Byte) (c : CipherState) (hc : SeedDerived c)
      (hs : ∀ d, salt = some d → d.length = 16) (hk : key ≠ []) : SeedDerived (expandKey salt key c)

/-- What holds of one instance between steps. -/
structure Engine.Inv (e : Engine) : Prop where
  /-- A pending command was issued: R41 -/
  issued : ∀ w, e.pend = some w →
    e.done = false ∧ e.lastOp = opField w ∧ (clearsCostCtr (opField w) = true → e.costCtr = 0)
  /-- ERR and MATCH are those of a completed command: R36 -/
  notDone : e.done = false → e.matched = false ∧ e.err = .none
  /-- MATCH is BC_CHECK's, ended without an error: R36, R255 -/
  matchedBy : e.matched = true → e.err = .none ∧ e.lastOp = 0x32#8 ∧ e.stateValid = false
  /-- LENGTH_MISMATCH is never raised: R283 -/
  noMismatch : e.err ≠ .lengthMismatch
  /-- COST_CTR counts a whole cost loop or none: R35 -/
  costCtr : e.costCtr = 0#32 ∨ ∃ c, 4 ≤ c ∧ c ≤ 31 ∧ e.costCtr = BitVec.ofNat 32 (2 ^ c)
  /-- A cost-loop command that ended in an error ran none of it: R35 -/
  costCtrErr : e.err ≠ .none → clearsCostCtr e.lastOp = true → e.costCtr = 0
  /-- MINOR holds its reset value or an accepted minor version: R27 -/
  minorLegal : e.minor = 0#8 ∨ isMinor e.minor = true
  /-- STR_OUT_LEN never passes the capacity: R33 -/
  strOutLen : e.strOutLen.toNat ≤ 64
  /-- every byte of STR_OUT past its length is 0: R33 -/
  strOutTail : ∀ i, e.strOutLen.toNat ≤ i → byteAt e.strOut i = 0#8

/-- The invariant of the machine: that of its instance, and every host's bindings in canonical form. -/
structure State.Inv (s : State) : Prop where
  eng : s.eng.Inv
  env : ∀ h ∈ s.hosts, envSorted h.env = true

/-- A run that is safe: it has not stopped. -/
def Safe (r : Result) : Prop := ∃ s, r = .next s

/-- The instance after a command completes; none if the machine stopped. -/
def afterExec (i : Instr) (s : State) : Option State :=
  match exec i s with
  | .next t => some t
  | .fault _ => none
  | .refused _ => none

/-- Completing commands one after another. -/
def afterAll : List Instr → State → Option State
  | [], s => some s
  | i :: rest, s => (afterExec i s).bind (afterAll rest)

/-- The error of a salt string, by the stages of 42_codec.md R220 to R224, in the characters' codes. -/
def saltStringError (s : List Byte) : ErrorCode :=
  if s.length < 7 ∨ s.getD 3 0 ≠ 0x24#8 ∨ s.getD 6 0 ≠ 0x24#8 then .invalidSalt
  else if s.getD 0 0 ≠ 0x24#8 ∨ s.getD 1 0 ≠ 0x32#8 then .invalidSaltVersion
  else if s.getD 2 0 ∉ [0x61#8, 0x62#8, 0x78#8, 0x79#8] ∨
      ¬ (0x30 ≤ (s.getD 4 0).toNat ∧ (s.getD 4 0).toNat ≤ 0x39) ∨
      ¬ (0x30 ≤ (s.getD 5 0).toNat ∧ (s.getD 5 0).toNat ≤ 0x39) ∨
      10 * ((s.getD 4 0).toNat - 0x30) + ((s.getD 5 0).toNat - 0x30) < 4 ∨
      31 < 10 * ((s.getD 4 0).toNat - 0x30) + ((s.getD 5 0).toNat - 0x30) then .invalidSaltFormat
  else if s.length < 29 then .invalidSalt
  else if ∃ c ∈ (s.drop 7).take 22, c ∉ bcAlpha then .r64InvalidChar
  else .none

/-- The checks of a command and their order: the table of 60_exceptions.md R285, with the limits of R282.
`none` where every check passes. -/
def checkOrder : Instr → Engine → ErrorCode
  | .bfInit, _ => .none
  | .bfDiscard, _ => .none
  | .bfEncrypt, e => if e.stateValid = false then .stateNotInitialized else .none
  | .eksExpandS, e => if e.stateValid = false then .stateNotInitialized else .none
  | .bcDigest, e => if e.stateValid = false then .stateNotInitialized else .none
  | .eksExpandSk, e =>
    if 72 < e.keyLen.toNat then .boundedLengthExceeded
    else if e.stateValid = false then .stateNotInitialized else .none
  | .eksExpandK, e =>
    if 72 < e.keyLen.toNat then .boundedLengthExceeded
    else if e.stateValid = false then .stateNotInitialized else .none
  | .eksSetup, e =>
    if 72 < e.keyLen.toNat then .boundedLengthExceeded
    else if 31 < e.cost.toNat then .roundsExceeded
    else if e.cost.toNat < 4 then .roundsBelowMinimum else .none
  | .saltGen rng, e =>
    if rng = true ∧ Config.hasRng = false then .illegalCommand
    else if 31 < e.cost.toNat then .roundsExceeded
    else if e.cost.toNat < 4 then .roundsBelowMinimum else .none
  | .r64Encode, e => if 48 < e.bytesLen.toNat then .boundedLengthExceeded else .none
  | .r64Decode, e =>
    if 64 < e.strInLen.toNat then .boundedLengthExceeded
    else if e.strInLen.toNat % 4 = 1 then .r64InvalidLength
    else if ∃ c ∈ e.strIn.toList.take e.strInLen.toNat, c ∉ bcAlpha then .r64InvalidChar else .none
  | .xlatToBcrypt, e =>
    if 64 < e.strInLen.toNat then .boundedLengthExceeded
    else if ∃ c ∈ e.strIn.toList.take e.strInLen.toNat, c ∉ stdAlpha then .r64InvalidChar else .none
  | .xlatToStd, e =>
    if 64 < e.strInLen.toNat then .boundedLengthExceeded
    else if ∃ c ∈ e.strIn.toList.take e.strInLen.toNat, c ∉ bcAlpha then .r64InvalidChar else .none
  | .saltParse, e =>
    if 60 < e.strInLen.toNat then .boundedLengthExceeded
    else saltStringError (e.strIn.toList.take e.strInLen.toNat)
  | .bcHash, e =>
    if 72 < e.keyLen.toNat then .boundedLengthExceeded
    else if 60 < e.strInLen.toNat then .boundedLengthExceeded
    else saltStringError (e.strIn.toList.take e.strInLen.toNat)
  | .bcCheck, e =>
    if 72 < e.keyLen.toNat then .boundedLengthExceeded
    else if 60 < e.strInLen.toNat then .boundedLengthExceeded
    else saltStringError (e.strIn.toList.take e.strInLen.toNat)

/-- A radix-64 text's discarded bits are zero (42_codec.md R203, R204): none for whole groups, the low 4
bits of the last character's value for a group of 2, the low 2 for a group of 3. -/
def canonicalText (t : List Byte) : Prop :=
  (t.length % 4 = 2 → ∃ v, valueIn bcAlpha (t.getLastD 0) = some v ∧ v % 16 = 0) ∧
  (t.length % 4 = 3 → ∃ v, valueIn bcAlpha (t.getLastD 0) = some v ∧ v % 4 = 0)

end Sys2Proof.Machine
end

