-- ==== Sys2Proof/Certificates/Slice0/Obligations.lean ====
section
/-! DEFINITION. The statements about the model. Each docstring names the rule of spec/ it is about. -/

open Sys2Proof Sys2Proof.Machine

/-! ## Encoding -/

/-- R100, R102, R103: a word decodes to a command exactly when it is that command's word. Both directions:
no bit is dropped, and no command has a second word. -/
def Obligations.DecodeExactlyEncodings : Prop :=
  ∀ (w : Word) (i : Instr), decode w = .ok i ↔ encode i = w

/-- R103: the legal words are the 17 of the table (16 where there is no random-byte port); a legal word
runs its command, and any other ends with code 10 and changes nothing else. -/
def Obligations.LegalWordsRunOthersEndWithCodeTen : Prop :=
  (∀ w : Word, LegalWord true w ↔
    w ∈ [0x01#32, 0x02#32, 0x03#32, 0x10#32, 0x11#32, 0x12#32, 0x13#32, 0x20#32, 0x21#32, 0x22#32,
      0x23#32, 0x24#32, 0x124#32, 0x25#32, 0x30#32, 0x31#32, 0x32#32]) ∧
  (∀ w : Word, LegalWord false w ↔ LegalWord true w ∧ w ≠ 0x124#32) ∧
  ∀ (s : State) (w : Word), s.eng.pend = some w →
    (LegalWord Config.hasRng w →
      ∃ i, decode w = .ok i ∧ i.wellFormed = true ∧ engineTurn s = exec i s) ∧
    (¬ LegalWord Config.hasRng w →
      engineTurn s =
        .next { s with eng := { s.eng with pend := none, done := true, err := .illegalCommand } })

/-- R102: words written out from the opcode map decode to their commands (a sanity statement). That 0x124 decodes
whatever HAS_RNG is, is the model's choice (log 9): where there is no port the command ends with code 10. -/
def Obligations.TableWordsDecode : Prop :=
  decodeTableWord 32 0x00000001 = some .bfInit ∧ decodeTableWord 32 0x00000010 = some .eksExpandSk ∧
  decodeTableWord 32 0x00000022 = some .xlatToBcrypt ∧ decodeTableWord 32 0x00000024 = some (.saltGen false) ∧
  decodeTableWord 32 0x00000124 = some (.saltGen true) ∧ decodeTableWord 32 0x00000032 = some .bcCheck ∧
  decodeTableWord 32 0x00000000 = none ∧ decodeTableWord 32 0x00000101 = none ∧
  decodeTableWord 32 0x80000001 = none

/-! ## Issue, completion and the host port -/

/-- R44: on the engine's turn a step runs exactly the decoded command, the turn itself taken off the list. -/
def Obligations.StepRunsPendingCommand : Prop :=
  ∀ (s : State) (w : Word) (i : Instr), s.eng.pend = some w → decode w = .ok i →
    (∀ rest, s.turns = .engine :: rest → step s = exec i { s with turns := rest }) ∧
    (s.turns = [] → step s = exec i s)

/-- R44: the completion step is enabled exactly when PEND ≠ none: without a pending word the engine's turn does
nothing, with one (legal or not) it ends that command. And every command completes, on every state, with no
stop. -/
def Obligations.EveryCommandCompletes : Prop :=
  (∀ (s : State), s.eng.pend = none → engineTurn s = .next s) ∧
  (∀ (s : State), s.eng.pend ≠ none → ∃ t, engineTurn s = .next t ∧ t.eng.pend = none ∧ t.eng.busy = false ∧
    t.eng.done = true ∧ t.eng.lastOp = s.eng.lastOp ∧ t.eng.werr = s.eng.werr ∧ t.hosts = s.hosts ∧
    t.turns = s.turns) ∧
  ∀ (i : Instr) (s : State), ∃ t, exec i s = .next t ∧ t.eng.pend = none ∧ t.eng.busy = false ∧
    t.eng.done = true ∧ t.eng.lastOp = s.eng.lastOp ∧ t.eng.werr = s.eng.werr ∧ t.hosts = s.hosts ∧
    t.turns = s.turns

/-- R41: what a CMD write does while BUSY = 0, whatever the word. BUSY is 1 after it. -/
def Obligations.CommandWriteIssues : Prop :=
  ∀ (e : Engine) (addr : Nat) (w : Word), e.pend = none → wordOffset addr = 0x0004 →
    e.memWrite addr w =
      { e with
        pend := some w, done := false, matched := false, err := .none, lastOp := w.extractLsb' 0 8
        costCtr := if w.extractLsb' 0 8 = 0x13#8 ∨ w.extractLsb' 0 8 = 0x31#8 ∨ w.extractLsb' 0 8 = 0x32#8
          then 0 else e.costCtr } ∧
    (e.memWrite addr w).busy = true

/-- R42: while BUSY = 1 a write to any offset other than STATUS changes nothing but WERR. -/
def Obligations.WritesWhileBusySetWerr : Prop :=
  ∀ (e : Engine) (addr : Nat) (v : Word), e.pend ≠ none → wordOffset addr ≠ 0x0008 →
    e.memWrite addr v = { e with werr := true }

/-- R36: a STATUS write is taken busy or not; only bit 4 acts, and it clears WERR. -/
def Obligations.StatusWriteClearsWerr : Prop :=
  ∀ (e : Engine) (addr : Nat) (v : Word), wordOffset addr = 0x0008 →
    e.memWrite addr v = { e with werr := if v.getLsbD 4 then false else e.werr }

/-- R43: reads while BUSY = 1. The draw is the opaque free value of log 4: nothing is stated of it but
that the next one is a fresh one. -/
def Obligations.ReadsWhileBusyAreDraws : Prop :=
  ∀ (e : Engine) (addr : Nat), e.pend ≠ none →
    (wordOffset addr = 0x0000 → e.memRead addr = (0x42435259#32, e)) ∧
    (wordOffset addr = 0x0004 → e.memRead addr = (0#32, e)) ∧
    (wordOffset addr = 0x0008 → e.memRead addr = (e.statusWord, e)) ∧
    (wordOffset addr ∉ [0x0000, 0x0004, 0x0008] →
      e.memRead addr =
        (Config.busyRead e.drawStream e.busyReads, { e with busyReads := e.busyReads + 1 }))

/-- R36, R281: the fields of STATUS, at the bits of the rule's table, with BUSY as PEND ≠ none (R39), and the
number of each error in the ERR field. -/
def Obligations.StatusFieldsStandAtTheirBits : Prop :=
  (∀ e : Engine,
    e.statusWord.getLsbD 0 = e.pend.isSome ∧ e.statusWord.getLsbD 1 = e.done ∧
    e.statusWord.getLsbD 2 = e.stateValid ∧ e.statusWord.getLsbD 3 = e.matched ∧
    e.statusWord.getLsbD 4 = e.werr ∧ e.statusWord.extractLsb' 5 3 = 0#3 ∧
    e.statusWord.extractLsb' 8 8 = e.err.code ∧ e.statusWord.extractLsb' 16 8 = e.lastOp ∧
    e.statusWord.extractLsb' 24 8 = 0#8) ∧
  ErrorCode.none.code = 0#8 ∧ ErrorCode.invalidSalt.code = 1#8 ∧ ErrorCode.invalidSaltVersion.code = 2#8 ∧
  ErrorCode.invalidSaltFormat.code = 3#8 ∧ ErrorCode.roundsExceeded.code = 4#8 ∧
  ErrorCode.boundedLengthExceeded.code = 5#8 ∧ ErrorCode.roundsBelowMinimum.code = 6#8 ∧
  ErrorCode.r64InvalidChar.code = 7#8 ∧ ErrorCode.r64InvalidLength.code = 8#8 ∧
  ErrorCode.stateNotInitialized.code = 9#8 ∧ ErrorCode.illegalCommand.code = 10#8 ∧
  ErrorCode.lengthMismatch.code = 11#8

/-- R40, R46, R73, R24: every row of the register map read while BUSY = 0, with no side effect (R76). -/
def Obligations.IdleReadsFollowTheRegisterMap : Prop :=
  ∀ e : Engine, e.pend = none →
    e.memRead 0x0000 = (0x42435259#32, e) ∧ e.memRead 0x0004 = (0#32, e) ∧
    e.memRead 0x0008 = (e.statusWord, e) ∧ e.memRead 0x000C = (e.dataL, e) ∧
    e.memRead 0x0010 = (e.dataR, e) ∧ e.memRead 0x0014 = (e.cost.setWidth 32, e) ∧
    e.memRead 0x0018 = (e.minor.setWidth 32, e) ∧ e.memRead 0x001C = (e.keyLen.setWidth 32, e) ∧
    e.memRead 0x0020 = (e.strInLen.setWidth 32, e) ∧ e.memRead 0x0024 = (e.strOutLen.setWidth 32, e) ∧
    e.memRead 0x0028 = (e.bytesLen.setWidth 32, e) ∧ e.memRead 0x002C = (e.costCtr, e) ∧
    (∀ k : Fin 18, e.memRead (0x0040 + 4 * k.val) =
      (e.key[4 * k.val] ++ e.key[4 * k.val + 1] ++ e.key[4 * k.val + 2] ++ e.key[4 * k.val + 3], e)) ∧
    (∀ k : Fin 4, e.memRead (0x0090 + 4 * k.val) =
      (e.salt[4 * k.val] ++ e.salt[4 * k.val + 1] ++ e.salt[4 * k.val + 2] ++ e.salt[4 * k.val + 3], e)) ∧
    (∀ k : Fin 6, e.memRead (0x00A0 + 4 * k.val) =
      (e.digest[4 * k.val] ++ e.digest[4 * k.val + 1] ++ e.digest[4 * k.val + 2] ++ e.digest[4 * k.val + 3], e)) ∧
    (∀ k : Fin 12, e.memRead (0x00C0 + 4 * k.val) =
      (e.bytes[4 * k.val] ++ e.bytes[4 * k.val + 1] ++ e.bytes[4 * k.val + 2] ++ e.bytes[4 * k.val + 3], e)) ∧
    (∀ k : Fin 16, e.memRead (0x0100 + 4 * k.val) =
      (e.strIn[4 * k.val] ++ e.strIn[4 * k.val + 1] ++ e.strIn[4 * k.val + 2] ++ e.strIn[4 * k.val + 3], e)) ∧
    (∀ k : Fin 16, e.memRead (0x0140 + 4 * k.val) =
      (e.strOut[4 * k.val] ++ e.strOut[4 * k.val + 1] ++ e.strOut[4 * k.val + 2] ++ e.strOut[4 * k.val + 3], e)) ∧
    (∀ i : Fin 18, e.memRead (0x0400 + 4 * i.val) = (if e.stateValid then e.cipher.p[i] else 0#32, e)) ∧
    (∀ (b : Fin 4) (j : Fin 256), e.memRead (0x1000 + 0x400 * b.val + 4 * j.val) =
      (if e.stateValid then (e.cipher.s[b])[j] else 0#32, e))

/-- R46, R73, R40: every row of the register map written while BUSY = 0, CMD and STATUS apart (their own
statements): read-write registers truncated to their width, buffer words stored big-endian with every
other byte as before, everything else ignored. -/
def Obligations.IdleWritesFollowTheRegisterMap : Prop :=
  ∀ (e : Engine) (v : Word), e.pend = none →
    e.memWrite 0x000C v = { e with dataL := v } ∧ e.memWrite 0x0010 v = { e with dataR := v } ∧
    e.memWrite 0x0014 v = { e with cost := v.extractLsb' 0 8 } ∧
    e.memWrite 0x001C v = { e with keyLen := v.extractLsb' 0 8 } ∧
    e.memWrite 0x0020 v = { e with strInLen := v.extractLsb' 0 8 } ∧
    e.memWrite 0x0028 v = { e with bytesLen := v.extractLsb' 0 8 } ∧
    (∀ k : Fin 18, ∃ b, e.memWrite (0x0040 + 4 * k.val) v = { e with key := b } ∧
      ∀ i : Fin 72, b[i] = if i.val / 4 = k.val then v.extractLsb' (24 - 8 * (i.val % 4)) 8 else e.key[i]) ∧
    (∀ k : Fin 4, ∃ b, e.memWrite (0x0090 + 4 * k.val) v = { e with salt := b } ∧
      ∀ i : Fin 16, b[i] = if i.val / 4 = k.val then v.extractLsb' (24 - 8 * (i.val % 4)) 8 else e.salt[i]) ∧
    (∀ k : Fin 12, ∃ b, e.memWrite (0x00C0 + 4 * k.val) v = { e with bytes := b } ∧
      ∀ i : Fin 48, b[i] = if i.val / 4 = k.val then v.extractLsb' (24 - 8 * (i.val % 4)) 8 else e.bytes[i]) ∧
    (∀ k : Fin 16, ∃ b, e.memWrite (0x0100 + 4 * k.val) v = { e with strIn := b } ∧
      ∀ i : Fin 64, b[i] = if i.val / 4 = k.val then v.extractLsb' (24 - 8 * (i.val % 4)) 8 else e.strIn[i]) ∧
    (∀ off, off ∈ [0x0000, 0x0018, 0x0024, 0x002C] ∨ (0x00A0 ≤ off ∧ off ≤ 0x00B4) ∨
        (0x0140 ≤ off ∧ off ≤ 0x017C) ∨ (0x0400 ≤ off ∧ off ≤ 0x0444) ∨ (0x1000 ≤ off ∧ off ≤ 0x1FFC) →
      e.memWrite off v = e)

/-- R45: reserved offsets read 0 and ignore writes while BUSY = 0, and stop nothing. -/
def Obligations.ReservedOffsetsReadZero : Prop :=
  ∀ (e : Engine) (off : Nat) (v : Word), e.pend = none →
    (0x0030 ≤ off ∧ off ≤ 0x003F) ∨ (0x0088 ≤ off ∧ off ≤ 0x008F) ∨ (0x00B8 ≤ off ∧ off ≤ 0x00BF) ∨
      (0x00F0 ≤ off ∧ off ≤ 0x00FF) ∨ (0x0180 ≤ off ∧ off ≤ 0x03FF) ∨ (0x0448 ≤ off ∧ off ≤ 0x0FFF) →
    e.memRead off = (0#32, e) ∧ e.memWrite off v = e

/-- R72: bits 1:0 and the bits above 12 of an address are not seen: an access at any base that is a
multiple of 8 KiB, aligned or not, is the access of the aligned offset. -/
def Obligations.AddressBitsOutsideTheOffsetAreIgnored : Prop :=
  ∀ (e : Engine) (base off r : Nat) (v : Word), base % 0x2000 = 0 → off < 0x2000 → off % 4 = 0 → r < 4 →
    e.memRead (base + off + r) = e.memRead off ∧ e.memWrite (base + off + r) v = e.memWrite off v

/-- R71: a host program's access of a width other than 4 is refused, whatever it accesses. -/
def Obligations.OtherWidthsAreRefused : Prop :=
  ∀ (h : HostAgent) (e : Engine) (r : Reg) (k v : HostValue) (x width : Nat), width ≠ 4 →
    h.runLine e (.wr r k width v) = .refused (.accessWidth width) ∧
    h.runLine e (.rd r k width x) = .refused (.accessWidth width)

/-- R185, R42: while a command is pending, a step that is neither its completion nor a reset leaves the
command pending and changes nothing of the instance but WERR and the model's count of free reads. -/
def Obligations.PendingCommandCannotBeCancelled : Prop :=
  ∀ (s t : State) (w : Word), s.eng.pend = some w → step s = .next t →
    (popTurn s).1 ≠ .engine → (popTurn s).1 ≠ .reset →
    t.eng = { s.eng with werr := t.eng.werr, busyReads := t.eng.busyReads } ∧ t.eng.pend = some w

/-- R298: what a command reported stays until the next issue or a reset: after any step of an idle machine
ERR, MATCH, DONE and LAST_OP are as before, or a command is pending, or the instance was reset. -/
def Obligations.ReportStaysUntilNextIssue : Prop :=
  ∀ s t : State, s.eng.pend = none → step s = .next t →
    (t.eng.err = s.eng.err ∧ t.eng.matched = s.eng.matched ∧ t.eng.done = s.eng.done ∧
      t.eng.lastOp = s.eng.lastOp) ∨
    (∃ w, t.eng.pend = some w) ∨ (popTurn s).1 = .reset

/-- R341: after at most the turns already chosen and one step more, unless a host program stops the run first, a
pending command has completed or a reset has aborted it; with no reset among the choices it has completed, with
DONE = 1 and its opcode still in LAST_OP. That a pending completion is taken first once the choices are used up
is the model's choice (log 5). -/
def Obligations.PendingCommandCompletesInTime : Prop :=
  (∀ s : State, (∃ k t, k ≤ s.turns.length + 1 ∧ Host.Core.run core k s = .next t ∧ t.eng.pend = none) ∨
    (∃ k, k ≤ s.turns.length ∧ ((∃ r, Host.Core.run core k s = .fault r) ∨
      (∃ r, Host.Core.run core k s = .refused r)))) ∧
  ∀ s : State, s.eng.pend ≠ none → .reset ∉ s.turns →
    (∃ k t, k ≤ s.turns.length + 1 ∧ Host.Core.run core k s = .next t ∧ t.eng.pend = none ∧ t.eng.done = true ∧
      t.eng.lastOp = s.eng.lastOp) ∨
    (∃ k, k ≤ s.turns.length ∧ ((∃ r, Host.Core.run core k s = .fault r) ∨
      (∃ r, Host.Core.run core k s = .refused r)))

/-! ## Reset -/

/-- R320: RESET can be taken at any time and is one step: no command is pending after it, STATUS and every
offset of the window but ID read 0, and the commands that read P and S fail. That the hosts and the rest of
the scheduler's choices stay as they were is the model's choice (log 10), not the rule's. -/
def Obligations.ResetClearsTheInstance : Prop :=
  ∀ (s : State) (rest : List Turn), s.turns = .reset :: rest →
    ∃ t, step s = .next t ∧ t.turns = rest ∧ t.hosts = s.hosts ∧ t.eng.pend = none ∧
      t.eng.statusWord = 0#32 ∧
      (∀ addr, t.eng.memRead addr = (if wordOffset addr = 0 then 0x42435259#32 else 0#32, t.eng)) ∧
      (∀ i ∈ [Instr.bfEncrypt, .eksExpandSk, .eksExpandK, .eksExpandS, .bcDigest], ∃ u,
        exec i t = .next u ∧ u.eng.err = .stateNotInitialized)

/-- R321, R322, R323: the machine right after reset: nothing pending, STATUS 0, ID readable, every other
offset 0; a command issued on the reset values does what its rule says for them. -/
def Obligations.ResetStateReadsZero : Prop :=
  State.reset.eng.pend = none ∧ State.reset.eng.statusWord = 0#32 ∧
  (∀ addr, (State.reset.eng.memRead addr).1 = if wordOffset addr = 0 then 0x42435259#32 else 0#32) ∧
  (∃ t, exec .eksSetup State.reset = .next t ∧ t.eng.err = .roundsBelowMinimum) ∧
  (∃ t, exec (.saltGen false) State.reset = .next t ∧ t.eng.err = .roundsBelowMinimum) ∧
  (∃ t, exec .saltParse State.reset = .next t ∧ t.eng.err = .invalidSalt) ∧
  (∃ t, exec .bcHash State.reset = .next t ∧ t.eng.err = .invalidSalt) ∧
  (∃ t, exec .bcCheck State.reset = .next t ∧ t.eng.err = .invalidSalt)

/-! ## Errors and frames -/

/-- R297 (with R284, R286): a command that ends in an error, and an illegal word, write only the report: PEND
(so BUSY), DONE and ERR; LAST_OP holds what issue put there, and control goes nowhere. -/
def Obligations.ErrorsChangeOnlyTheReport : Prop :=
  (∀ (i : Instr) (s t : State), exec i s = .next t → t.eng.err ≠ .none →
    t = { s with eng := { s.eng with pend := none, done := true, err := t.eng.err } } ∧ t.eng.busy = false) ∧
  ∀ s t : State, s.eng.pend ≠ none → engineTurn s = .next t → t.eng.err ≠ .none →
    t = { s with eng := { s.eng with pend := none, done := true, err := t.eng.err } } ∧ t.eng.busy = false

/-- R285 (with R282, R280, R288 to R294): every command reports the first of its checks that fails, in the
order of the rule's table, and code 0 when none does. -/
def Obligations.FirstFailingCheckIsReported : Prop :=
  ∀ (i : Instr) (s : State), ∃ t, exec i s = .next t ∧ t.eng.err = checkOrder i s.eng

/-- R106: what each command may write; every other register and buffer is as before, on success and on
error. ERR, DONE and PEND are the report. The commands are named in each clause. -/
def Obligations.CommandsWriteOnlyTheirResults : Prop :=
  ∀ (i : Instr) (s t : State), exec i s = .next t →
    (t.hosts = s.hosts ∧ t.turns = s.turns ∧ t.eng.key = s.eng.key ∧ t.eng.keyLen = s.eng.keyLen ∧
      t.eng.strIn = s.eng.strIn ∧ t.eng.strInLen = s.eng.strInLen ∧ t.eng.lastOp = s.eng.lastOp ∧
      t.eng.werr = s.eng.werr ∧ t.eng.drawStream = s.eng.drawStream ∧ t.eng.busyReads = s.eng.busyReads) ∧
    (i ∉ [.bfInit, .bfDiscard, .eksExpandSk, .eksExpandK, .eksExpandS, .eksSetup, .bcHash, .bcCheck] →
      t.eng.cipher = s.eng.cipher) ∧
    (i ∉ [.bfInit, .bfDiscard, .eksSetup, .bcHash, .bcCheck] → t.eng.stateValid = s.eng.stateValid) ∧
    (i ≠ .bfEncrypt → t.eng.dataL = s.eng.dataL ∧ t.eng.dataR = s.eng.dataR) ∧
    (i ≠ .saltParse → t.eng.minor = s.eng.minor ∧ t.eng.cost = s.eng.cost) ∧
    (i ∉ [.saltParse, .saltGen true] → t.eng.salt = s.eng.salt) ∧
    (i ≠ .saltGen true → t.eng.rngDraws = s.eng.rngDraws) ∧
    (i ≠ .r64Decode → t.eng.bytes = s.eng.bytes ∧ t.eng.bytesLen = s.eng.bytesLen) ∧
    (i ∉ [.r64Encode, .xlatToBcrypt, .xlatToStd, .saltGen false, .saltGen true, .bcHash] →
      t.eng.strOut = s.eng.strOut ∧ t.eng.strOutLen = s.eng.strOutLen) ∧
    (i ≠ .bcDigest → t.eng.digest = s.eng.digest) ∧
    (i ∉ [.eksSetup, .bcHash, .bcCheck] → t.eng.costCtr = s.eng.costCtr) ∧
    (i ≠ .bcCheck → t.eng.matched = s.eng.matched)

/-- R337, R87: bytes at and beyond a length have no effect. Two instances that differ only in such bytes of
KEY and STR_IN, and of BYTES for every command that does not write BYTES, end alike but for those bytes. -/
def Obligations.BytesBeyondALengthHaveNoEffect : Prop :=
  ∀ (i : Instr) (s t : State) (key : Vector Byte 72) (strIn : Vector Byte 64) (bytes : Vector Byte 48),
    (∀ k : Fin 72, k.val < s.eng.keyLen.toNat → key[k] = s.eng.key[k]) →
    (∀ k : Fin 64, k.val < s.eng.strInLen.toNat → strIn[k] = s.eng.strIn[k]) →
    (∀ k : Fin 48, k.val < s.eng.bytesLen.toNat → bytes[k] = s.eng.bytes[k]) →
    exec i s = .next t →
    (exec i { s with eng := { s.eng with key := key, strIn := strIn } } =
      .next { t with eng := { t.eng with key := key, strIn := strIn } }) ∧
    (i ≠ .r64Decode → exec i { s with eng := { s.eng with bytes := bytes } } =
      .next { t with eng := { t.eng with bytes := bytes } })

/-! ## Blowfish -/

/-- R150, R61 to R66: BF_INIT from any state: P and S are the seed, STATE_VALID is 1, the rest is the report.
P and S then have the check values of the seed's tables (the XOR and the sum of P, of each box and of all 1042
words), each table has the first and last word of its rows, and the window reads them. -/
def Obligations.BfInitLoadsTheSeed : Prop :=
  ∀ s : State, ∃ t, exec .bfInit s = .next t ∧
    t = { s with eng := { s.eng with
      cipher := ⟨pInit, sInit⟩, stateValid := true, pend := none, done := true, err := .none } } ∧
    (∀ (words : List Word) (x sum : Word),
      (words, x, sum) ∈ [(t.eng.cipher.p.toList, 0xB73AD7EA#32, 0x8E4D14CC#32),
        (t.eng.cipher.s[0].toList, 0x4EB4DB7F#32, 0x4B745115#32),
        (t.eng.cipher.s[1].toList, 0xC727E122#32, 0x72FF37B2#32),
        (t.eng.cipher.s[2].toList, 0x462A5D01#32, 0x2AC02B91#32),
        (t.eng.cipher.s[3].toList, 0x1779E2BC#32, 0xF43E3A88#32),
        (t.eng.cipher.p.toList ++ t.eng.cipher.s[0].toList ++ t.eng.cipher.s[1].toList ++
          t.eng.cipher.s[2].toList ++ t.eng.cipher.s[3].toList, 0x6FFA520A#32, 0x6BBF03AC#32)] →
      words.foldl (fun a w => a ^^^ w) 0#32 = x ∧ words.foldl (fun a w => a + w) 0#32 = sum) ∧
    (∀ (off : Nat) (w : Word), (off, w) ∈ [(0x0400, 0x243F6A88#32), (0x0444, 0x8979FB1B#32),
        (0x1000, 0xD1310BA6#32), (0x13FC, 0x6E85076A#32), (0x1400, 0x4B7A70E9#32), (0x17FC, 0xDB83ADF7#32),
        (0x1800, 0xE93D5A68#32), (0x1BFC, 0x406000E0#32), (0x1C00, 0x3A39CE37#32), (0x1FFC, 0x3AC372E6#32)] →
      (t.eng.memRead off).1 = w)

/-- R151, R140, R141, R142: with STATE_VALID = 1, BF_ENCRYPT replaces (DATA_L, DATA_R) by what 16 rounds
`L ⊕ P[i]`, `R ⊕ F(L)`, swap, and the final subkey pair make of it; P, S and all else stay. With
STATE_VALID = 0 it ends with code 9. -/
def Obligations.BfEncryptRunsSixteenRounds : Prop :=
  ∀ (s : State) (l r : Nat → Word),
    l 0 = s.eng.dataL → r 0 = s.eng.dataR →
    (∀ i : Fin 16, ∃ x : Word, x = l i.val ^^^ s.eng.cipher.p[i.val] ∧
      r (i.val + 1) = x ∧
      l (i.val + 1) = r i.val ^^^
        (((s.eng.cipher.s[0][(x.extractLsb' 24 8).toNat]'(by omega) +
           s.eng.cipher.s[1][(x.extractLsb' 16 8).toNat]'(by omega)) ^^^
           s.eng.cipher.s[2][(x.extractLsb' 8 8).toNat]'(by omega)) +
           s.eng.cipher.s[3][(x.extractLsb' 0 8).toNat]'(by omega))) →
    exec .bfEncrypt s =
      if s.eng.stateValid = true then
        .next { s with eng := { s.eng with
          dataL := r 16 ^^^ s.eng.cipher.p[17], dataR := l 16 ^^^ s.eng.cipher.p[16]
          pend := none, done := true, err := .none } }
      else .next { s with eng := { s.eng with pend := none, done := true, err := .stateNotInitialized } }

/-- R152: BF_DISCARD from any state: P and S are zero, STATE_VALID is 0, and the P and S windows read 0. -/
def Obligations.BfDiscardClearsTheCipherState : Prop :=
  ∀ s : State, ∃ t, exec .bfDiscard s = .next t ∧
    t = { s with eng := { s.eng with
      cipher := t.eng.cipher, stateValid := false, pend := none, done := true, err := .none } } ∧
    (∀ i : Fin 18, t.eng.cipher.p[i] = 0#32) ∧
    (∀ (b : Fin 4) (j : Fin 256), (t.eng.cipher.s[b])[j] = 0#32) ∧
    (∀ off, 0x0400 ≤ off ∧ off ≤ 0x0447 ∨ 0x1000 ≤ off ∧ off ≤ 0x1FFF → t.eng.memRead off = (0#32, t.eng))

/-- R143 ("Encrypt is a bijection on 64-bit blocks for any fixed state", which the spec takes from general
knowledge): two blocks with one ciphertext are one block, and every block is a ciphertext. -/
def Obligations.EncryptIsABijection : Prop :=
  ∀ c : CipherState, Function.Bijective c.encrypt

/-! ## Key schedule -/

/-- R170, R172 phase 1: P[i] is XORed with the big-endian word of the key's bytes 4i to 4i+3, the key
wrapping; S is untouched. -/
def Obligations.KeyIsMixedCyclicallyIntoP : Prop :=
  ∀ (key : List Byte) (c : CipherState), key ≠ [] →
    (∀ i : Fin 18, (keyIntoP key c).p[i] = c.p[i] ^^^
      (key.getD ((4 * i.val) % key.length) 0 ++ key.getD ((4 * i.val + 1) % key.length) 0 ++
        key.getD ((4 * i.val + 2) % key.length) 0 ++ key.getD ((4 * i.val + 3) % key.length) 0)) ∧
    (keyIntoP key c).s = c.s

/-- R172 (with R174): the whole of ExpandKey, as a sequence of cipher states `x` and running blocks `(l, r)`.
It starts with the key XORed into P (phase 1) and the block (0, 0). Step `k` XORs the next two salt words into
the block (words 0, 1 and words 2, 3 in turn, on through P and S; none with the empty salt), encrypts it on P
and S as the steps before have left them, and writes it: the first 9 steps to P[0], P[1] up to P[16], P[17],
the next 128 to S[0], and so on to S[3]. ExpandKey is what 521 steps leave. -/
def Obligations.ExpandKeyChainsTheRunningBlock : Prop :=
  ∀ (salt : Option (Vector Byte 16)) (key : List Byte) (c : CipherState) (x : Nat → CipherState)
    (l r w : Nat → Word), key ≠ [] →
    (∀ i : Fin 18, (x 0).p[i] = c.p[i] ^^^
      (key.getD ((4 * i.val) % key.length) 0 ++ key.getD ((4 * i.val + 1) % key.length) 0 ++
        key.getD ((4 * i.val + 2) % key.length) 0 ++ key.getD ((4 * i.val + 3) % key.length) 0)) →
    (x 0).s = c.s → l 0 = 0#32 → r 0 = 0#32 →
    (salt = none → ∀ n, w n = 0#32) →
    (∀ d, salt = some d → ∀ n, w n = d[4 * (n % 4)] ++ d[4 * (n % 4) + 1] ++ d[4 * (n % 4) + 2] ++
      d[4 * (n % 4) + 3]) →
    (∀ k < 521, (l (k + 1), r (k + 1)) = (x k).encrypt (l k ^^^ w (2 * k), r k ^^^ w (2 * k + 1))) →
    (∀ k < 9, (x (k + 1)).s = (x k).s ∧ ∀ i : Fin 18, (x (k + 1)).p[i] =
      if i.val = 2 * k then l (k + 1) else if i.val = 2 * k + 1 then r (k + 1) else (x k).p[i]) →
    (∀ (b : Fin 4) (m : Fin 128) (k : Nat), k = 9 + 128 * b.val + m.val →
      (x (k + 1)).p = (x k).p ∧ ∀ (b' : Fin 4) (j : Fin 256), ((x (k + 1)).s[b'])[j] =
        if b' = b ∧ j.val = 2 * m.val then l (k + 1)
        else if b' = b ∧ j.val = 2 * m.val + 1 then r (k + 1) else ((x k).s[b'])[j]) →
    expandKey (salt.map Vector.toList) key c = x 521

/-- R173: with SALT all zero, EKS_EXPAND_SK does exactly what EKS_EXPAND_K does, because ExpandKey with an
empty salt is ExpandKey with 16 zero bytes. -/
def Obligations.ZeroSaltIsEmptySalt : Prop :=
  (∀ (key : List Byte) (c : CipherState),
    expandKey none key c = expandKey (some (List.replicate 16 0#8)) key c) ∧
  ∀ s : State, (∀ i : Fin 16, s.eng.salt[i] = 0#8) → exec .eksExpandSk s = exec .eksExpandK s

/-- R171, R259: two keys whose cyclic streams agree on the 72 bytes that phase 1 reads give the same
schedule, whatever the salt and the state ("" and "\x00" among them). -/
def Obligations.EqualKeyStreamsGiveEqualSchedules : Prop :=
  ∀ (salt : Option (List Byte)) (k1 k2 : List Byte) (c : CipherState), k1 ≠ [] → k2 ≠ [] →
    (∀ i < 72, k1.getD (i % k1.length) 0 = k2.getD (i % k2.length) 0) →
    expandKey salt k1 c = expandKey salt k2 c

/-- R181, R182, R183: the three EXPAND commands on a valid state and, where they read it, a KEY_LEN of at
most 72: ExpandKey on the current P and S with SALT or no salt, keyed with PwKey = KEY[0..KEY_LEN) ‖ 00 or
with the 16 salt bytes; STATE_VALID stays 1 and all else but the report stays. -/
def Obligations.ExpandCommandsExpandTheCurrentState : Prop :=
  ∀ s : State, s.eng.stateValid = true →
    (s.eng.keyLen.toNat ≤ 72 →
      exec .eksExpandSk s = .next { s with eng := { s.eng with
        cipher := expandKey (some s.eng.salt.toList)
          (s.eng.key.toList.take s.eng.keyLen.toNat ++ [0x00#8]) s.eng.cipher
        pend := none, done := true, err := .none } } ∧
      exec .eksExpandK s = .next { s with eng := { s.eng with
        cipher := expandKey none (s.eng.key.toList.take s.eng.keyLen.toNat ++ [0x00#8]) s.eng.cipher
        pend := none, done := true, err := .none } }) ∧
    exec .eksExpandS s = .next { s with eng := { s.eng with
      cipher := expandKey none s.eng.salt.toList s.eng.cipher
      pend := none, done := true, err := .none } }

/-- R184, R180, R35: EKS_SETUP with KEY_LEN ≤ 72 and COST in 4..31: the cost loop runs 2^COST times from the
seed expanded with the salt, STATE_VALID is 1 and COST_CTR is 2^COST. -/
def Obligations.EksSetupRunsTheCostLoop : Prop :=
  ∀ (s : State) (c : Nat → CipherState), s.eng.keyLen.toNat ≤ 72 → 4 ≤ s.eng.cost.toNat →
    s.eng.cost.toNat ≤ 31 →
    c 0 = expandKey (some s.eng.salt.toList)
      (s.eng.key.toList.take s.eng.keyLen.toNat ++ [0x00#8]) ⟨pInit, sInit⟩ →
    (∀ t, c (t + 1) = expandKey none s.eng.salt.toList
      (expandKey none (s.eng.key.toList.take s.eng.keyLen.toNat ++ [0x00#8]) (c t))) →
    exec .eksSetup s = .next { s with eng := { s.eng with
      cipher := c (2 ^ s.eng.cost.toNat), stateValid := true
      costCtr := BitVec.ofNat 32 (2 ^ s.eng.cost.toNat)
      pend := none, done := true, err := .none } }

/-- R180 (and 95_test_vectors.md L2.4): EKS_SETUP leaves the P, S and STATE_VALID that BF_INIT,
EKS_EXPAND_SK and 2^COST times EKS_EXPAND_K then EKS_EXPAND_S leave. -/
def Obligations.SetupEqualsTheLowLevelCommands : Prop :=
  ∀ s t : State, exec .eksSetup s = .next t → t.eng.err = .none →
    ∃ u, afterAll (.bfInit :: .eksExpandSk ::
        (List.replicate (2 ^ s.eng.cost.toNat) [Instr.eksExpandK, .eksExpandS]).flatten) s = some u ∧
      u.eng.cipher = t.eng.cipher ∧ u.eng.stateValid = true ∧ t.eng.stateValid = true ∧ u.eng.err = .none

/-! ## Radix-64 and alphabets -/

/-- R204: decoding an encoding gives the bytes back; encoding a decoding gives the text back exactly when
its discarded bits are zero, and a canonical text always; for a 22-character field that is when it ends in
`.`, `O`, `e` or `u`. -/
def Obligations.RadixRoundTrips : Prop :=
  (∀ b : List Byte, r64Decode (r64Encode b) = .ok b) ∧
  (∀ t b : List Byte, r64Decode t = .ok b → (r64Encode b = t ↔ canonicalText t) ∧ canonicalText (r64Encode b)) ∧
  ∀ t : List Byte, t.length = 22 → (∀ c ∈ t, c ∈ bcAlpha) →
    (canonicalText t ↔ t.getLastD 0 ∈ [0x2E#8, 0x4F#8, 0x65#8, 0x75#8])

/-- R114: encoded and decoded lengths; 16 bytes give 22 characters and 23 bytes give 31. -/
def Obligations.RadixLengths : Prop :=
  (∀ b : List Byte, (r64Encode b).length =
    4 * (b.length / 3) + (if b.length % 3 = 0 then 0 else if b.length % 3 = 1 then 2 else 3)) ∧
  (∀ t b : List Byte, r64Decode t = .ok b → t.length % 4 ≠ 1 ∧ b.length =
    3 * (t.length / 4) + (if t.length % 4 = 0 then 0 else if t.length % 4 = 2 then 1 else 2)) ∧
  (∀ t : List Byte, t.length % 4 = 1 → r64Decode t = .error .r64InvalidLength) ∧
  (∀ b : List Byte, b.length = 16 → (r64Encode b).length = 22) ∧
  (∀ b : List Byte, b.length = 23 → (r64Encode b).length = 31)

/-- R110, R111, R200, R201, R112: the two alphabets, character by character; each translation accepts exactly the strings over its source alphabet and is the
other's inverse on them; a character outside it gives code 7. -/
def Obligations.TranslationsAreInverse : Prop :=
  bcAlpha = [
    0x2E#8, 0x2F#8, 0x41#8, 0x42#8, 0x43#8, 0x44#8, 0x45#8, 0x46#8, 0x47#8, 0x48#8, 0x49#8, 0x4A#8,
    0x4B#8, 0x4C#8, 0x4D#8, 0x4E#8, 0x4F#8, 0x50#8, 0x51#8, 0x52#8, 0x53#8, 0x54#8, 0x55#8, 0x56#8,
    0x57#8, 0x58#8, 0x59#8, 0x5A#8, 0x61#8, 0x62#8, 0x63#8, 0x64#8, 0x65#8, 0x66#8, 0x67#8, 0x68#8,
    0x69#8, 0x6A#8, 0x6B#8, 0x6C#8, 0x6D#8, 0x6E#8, 0x6F#8, 0x70#8, 0x71#8, 0x72#8, 0x73#8, 0x74#8,
    0x75#8, 0x76#8, 0x77#8, 0x78#8, 0x79#8, 0x7A#8, 0x30#8, 0x31#8, 0x32#8, 0x33#8, 0x34#8, 0x35#8,
    0x36#8, 0x37#8, 0x38#8, 0x39#8] ∧
  stdAlpha = [
    0x41#8, 0x42#8, 0x43#8, 0x44#8, 0x45#8, 0x46#8, 0x47#8, 0x48#8, 0x49#8, 0x4A#8, 0x4B#8, 0x4C#8,
    0x4D#8, 0x4E#8, 0x4F#8, 0x50#8, 0x51#8, 0x52#8, 0x53#8, 0x54#8, 0x55#8, 0x56#8, 0x57#8, 0x58#8,
    0x59#8, 0x5A#8, 0x61#8, 0x62#8, 0x63#8, 0x64#8, 0x65#8, 0x66#8, 0x67#8, 0x68#8, 0x69#8, 0x6A#8,
    0x6B#8, 0x6C#8, 0x6D#8, 0x6E#8, 0x6F#8, 0x70#8, 0x71#8, 0x72#8, 0x73#8, 0x74#8, 0x75#8, 0x76#8,
    0x77#8, 0x78#8, 0x79#8, 0x7A#8, 0x30#8, 0x31#8, 0x32#8, 0x33#8, 0x34#8, 0x35#8, 0x36#8, 0x37#8,
    0x38#8, 0x39#8, 0x2B#8, 0x2F#8] ∧
  (∀ t : List Byte, (∀ c ∈ t, c ∈ stdAlpha) → ∃ u, toBcrypt t = .ok u ∧ toStd u = .ok t) ∧
  (∀ t : List Byte, (∀ c ∈ t, c ∈ bcAlpha) → ∃ u, toStd t = .ok u ∧ toBcrypt u = .ok t) ∧
  (∀ t : List Byte, (∃ c ∈ t, c ∉ stdAlpha) → toBcrypt t = .error .r64InvalidChar) ∧
  (∀ t : List Byte, (∃ c ∈ t, c ∉ bcAlpha) → toStd t = .error .r64InvalidChar)

/-- R210, R211, R33: XLAT_TO_BCRYPT and XLAT_TO_STD on a string of at most 64 characters of the source
alphabet: STR_OUT holds, index by index, the character of the same value in the other alphabet and zero
from the length on; all else but the report stays. -/
def Obligations.TranslateCommandsMapIndexByIndex : Prop :=
  ∀ (s : State) (v : Nat → Nat), s.eng.strInLen.toNat ≤ 64 →
    (∀ k : Fin 64, k.val < s.eng.strInLen.toNat → v k.val < 64) →
    ((∀ k : Fin 64, k.val < s.eng.strInLen.toNat → s.eng.strIn[k] = stdAlpha.getD (v k.val) 0) →
      ∃ t, exec .xlatToBcrypt s = .next t ∧
        t = { s with eng := { s.eng with strOut := t.eng.strOut, strOutLen := s.eng.strInLen
                                         pend := none, done := true, err := .none } } ∧
        ∀ k : Fin 64, t.eng.strOut[k] =
          if k.val < s.eng.strInLen.toNat then bcAlpha.getD (v k.val) 0 else 0#8) ∧
    ((∀ k : Fin 64, k.val < s.eng.strInLen.toNat → s.eng.strIn[k] = bcAlpha.getD (v k.val) 0) →
      ∃ t, exec .xlatToStd s = .next t ∧
        t = { s with eng := { s.eng with strOut := t.eng.strOut, strOutLen := s.eng.strInLen
                                         pend := none, done := true, err := .none } } ∧
        ∀ k : Fin 64, t.eng.strOut[k] =
          if k.val < s.eng.strInLen.toNat then stdAlpha.getD (v k.val) 0 else 0#8)

/-- R212, R202, R113, R33: the encoding takes its bytes in groups of three, `v = b0·2^16 + b1·2^8 + b2` with 0 for
a missing byte, and gives the characters of bits 23:18 and 17:12, of bits 11:6 if the group has two bytes, and
of bits 5:0 if it has three: two characters for a last group of one byte, three for one of two. R64_ENCODE with
BYTES_LEN ≤ 48: STR_OUT holds the encoding and zero after it. -/
def Obligations.EncodeCommandFillsStrOut : Prop :=
  (∀ (b : List Byte) (g v : Nat),
    v = (b.getD (3 * g) 0).toNat * 2 ^ 16 + (b.getD (3 * g + 1) 0).toNat * 2 ^ 8 + (b.getD (3 * g + 2) 0).toNat →
    (3 * g < b.length → (r64Encode b).getD (4 * g) 0 = bcAlpha.getD (v / 2 ^ 18 % 64) 0 ∧
      (r64Encode b).getD (4 * g + 1) 0 = bcAlpha.getD (v / 2 ^ 12 % 64) 0) ∧
    (3 * g + 1 < b.length → (r64Encode b).getD (4 * g + 2) 0 = bcAlpha.getD (v / 2 ^ 6 % 64) 0) ∧
    (3 * g + 2 < b.length → (r64Encode b).getD (4 * g + 3) 0 = bcAlpha.getD (v % 64) 0) ∧
    (b.length = 3 * g → (r64Encode b).length = 4 * g) ∧
    (b.length = 3 * g + 1 → (r64Encode b).length = 4 * g + 2) ∧
    (b.length = 3 * g + 2 → (r64Encode b).length = 4 * g + 3)) ∧
  ∀ s : State, s.eng.bytesLen.toNat ≤ 48 →
    ∃ t, exec .r64Encode s = .next t ∧
      t = { s with eng := { s.eng with strOut := t.eng.strOut, strOutLen := t.eng.strOutLen
                                       pend := none, done := true, err := .none } } ∧
      t.eng.strOutLen.toNat = (r64Encode (s.eng.bytes.toList.take s.eng.bytesLen.toNat)).length ∧
      ∀ k : Fin 64, t.eng.strOut[k] = (r64Encode (s.eng.bytes.toList.take s.eng.bytesLen.toNat)).getD k.val 0

/-- R213, R203, R113, R31: the decoding takes its characters in groups of four, `v` the sum of their values at
2^18, 2^12, 2^6 and 1 with 0 for a missing character, and gives bits 23:16, bits 15:8 if the group has three
characters, and bits 7:0 if it has four: one byte for a last group of two, two for one of three. R64_DECODE on at
most 64 characters of the bcrypt alphabet, not one more than a multiple of 4: BYTES holds the decoded bytes and
zero after them. -/
def Obligations.DecodeCommandFillsBytes : Prop :=
  (∀ (t b : List Byte) (idx : Nat → Nat) (g v : Nat), r64Decode t = .ok b →
    (∀ k < t.length, idx k < 64 ∧ t.getD k 0 = bcAlpha.getD (idx k) 0) → (∀ k, t.length ≤ k → idx k = 0) →
    v = idx (4 * g) * 2 ^ 18 + idx (4 * g + 1) * 2 ^ 12 + idx (4 * g + 2) * 2 ^ 6 + idx (4 * g + 3) →
    (4 * g + 1 < t.length → (b.getD (3 * g) 0).toNat = v / 2 ^ 16 % 256) ∧
    (4 * g + 2 < t.length → (b.getD (3 * g + 1) 0).toNat = v / 2 ^ 8 % 256) ∧
    (4 * g + 3 < t.length → (b.getD (3 * g + 2) 0).toNat = v % 256) ∧
    (t.length = 4 * g → b.length = 3 * g) ∧
    (t.length = 4 * g + 2 → b.length = 3 * g + 1) ∧
    (t.length = 4 * g + 3 → b.length = 3 * g + 2)) ∧
  ∀ s : State, s.eng.strInLen.toNat ≤ 64 → s.eng.strInLen.toNat % 4 ≠ 1 →
    (∀ c ∈ s.eng.strIn.toList.take s.eng.strInLen.toNat, c ∈ bcAlpha) →
    ∃ b t, r64Decode (s.eng.strIn.toList.take s.eng.strInLen.toNat) = .ok b ∧
      exec .r64Decode s = .next t ∧
      t = { s with eng := { s.eng with bytes := t.eng.bytes, bytesLen := t.eng.bytesLen
                                       pend := none, done := true, err := .none } } ∧
      t.eng.bytesLen.toNat = b.length ∧ ∀ k : Fin 48, t.eng.bytes[k] = b.getD k.val 0

/-! ## Salt strings -/

/-- R115, R220 to R226: parsing a well-formed salt string, whatever follows it, gives back its minor
version, its cost and its 16 salt bytes. -/
def Obligations.SaltStringsParseBack : Prop :=
  ∀ (minor : Byte) (cost : Nat) (salt : Vector Byte 16) (rest : List Byte),
    minor ∈ [0x61#8, 0x62#8, 0x78#8, 0x79#8] → 4 ≤ cost → cost ≤ 31 →
    parseSalt (saltString minor cost salt.toList ++ rest) = .ok ⟨minor, cost, salt⟩ ∧
    (saltString minor cost salt.toList).length = 29

/-- R225: SALT_PARSE on a string of at most 60 characters that is a salt string in the sense of R115:
MINOR, COST and SALT hold what it says, and all else but the report stays. -/
def Obligations.SaltParseWritesTheParsedSalt : Prop :=
  ∀ (s : State) (minor d1 d2 : Byte) (field rest : List Byte), s.eng.strInLen.toNat ≤ 60 →
    s.eng.strIn.toList.take s.eng.strInLen.toNat =
      [0x24#8, 0x32#8, minor, 0x24#8, d1, d2, 0x24#8] ++ field ++ rest →
    minor ∈ [0x61#8, 0x62#8, 0x78#8, 0x79#8] →
    0x30 ≤ d1.toNat ∧ d1.toNat ≤ 0x39 → 0x30 ≤ d2.toNat ∧ d2.toNat ≤ 0x39 →
    4 ≤ 10 * (d1.toNat - 0x30) + (d2.toNat - 0x30) → 10 * (d1.toNat - 0x30) + (d2.toNat - 0x30) ≤ 31 →
    field.length = 22 → (∀ c ∈ field, c ∈ bcAlpha) →
    ∃ (b : List Byte) (salt : Vector Byte 16), r64Decode field = .ok b ∧ salt.toList = b ∧
      exec .saltParse s = .next { s with eng := { s.eng with
        minor := minor, cost := BitVec.ofNat 8 (10 * (d1.toNat - 0x30) + (d2.toNat - 0x30)), salt := salt
        pend := none, done := true, err := .none } }

/-- R226, R227, R117: SALT_GEN with COST in 4..31. RNG = 0: STR_OUT holds `$2b$`, the two cost digits, `$`
and the encoding of SALT, 29 characters, zero after them. RNG = 1: with a random-byte port, SALT first
takes one free draw of 16 bytes; without one, the command is illegal and nothing else happens. -/
def Obligations.SaltGenWritesASaltString : Prop :=
  ∀ s : State, 4 ≤ s.eng.cost.toNat → s.eng.cost.toNat ≤ 31 →
    (∃ t, exec (.saltGen false) s = .next t ∧
      t = { s with eng := { s.eng with strOut := t.eng.strOut, strOutLen := 29#8
                                       pend := none, done := true, err := .none } } ∧
      ∀ k : Fin 64, t.eng.strOut[k] =
        ([0x24#8, 0x32#8, 0x62#8, 0x24#8, BitVec.ofNat 8 (0x30 + s.eng.cost.toNat / 10),
          BitVec.ofNat 8 (0x30 + s.eng.cost.toNat % 10), 0x24#8] ++ r64Encode s.eng.salt.toList).getD k.val 0) ∧
    (∃ t, exec (.saltGen true) s = .next t ∧
      if Config.hasRng = true then
        t = { s with eng := { s.eng with
          salt := Config.rngDraw s.eng.drawStream s.eng.rngDraws, rngDraws := s.eng.rngDraws + 1
          strOut := t.eng.strOut, strOutLen := 29#8, pend := none, done := true, err := .none } } ∧
        ∀ k : Fin 64, t.eng.strOut[k] =
          ([0x24#8, 0x32#8, 0x62#8, 0x24#8, BitVec.ofNat 8 (0x30 + s.eng.cost.toNat / 10),
            BitVec.ofNat 8 (0x30 + s.eng.cost.toNat % 10), 0x24#8] ++ r64Encode t.eng.salt.toList).getD k.val 0
      else t = { s with eng := { s.eng with pend := none, done := true, err := .illegalCommand } })

/-! ## Digest and hash strings -/

/-- R252, R250, R251: BC_DIGEST on a valid state: each of the three 64-bit blocks of
"OrpheanBeholderScryDoubt" is encrypted 64 times in sequence, and the six words are DIGEST big-endian;
P, S, STATE_VALID and all else but the report stay. -/
def Obligations.DigestEncryptsThePlaintext : Prop :=
  ∀ (s : State) (x : Fin 3 → Nat → Word × Word), s.eng.stateValid = true →
    x 0 0 = (0x4F727068#32, 0x65616E42#32) → x 1 0 = (0x65686F6C#32, 0x64657253#32) →
    x 2 0 = (0x63727944#32, 0x6F756274#32) →
    (∀ k n, x k (n + 1) = s.eng.cipher.encrypt (x k n)) →
    ∃ t, exec .bcDigest s = .next t ∧
      t = { s with eng := { s.eng with digest := t.eng.digest, pend := none, done := true, err := .none } } ∧
      ∀ k : Fin 3,
        t.eng.digest[8 * k.val] ++ t.eng.digest[8 * k.val + 1] ++ t.eng.digest[8 * k.val + 2] ++
          t.eng.digest[8 * k.val + 3] = (x k 64).1 ∧
        t.eng.digest[8 * k.val + 4] ++ t.eng.digest[8 * k.val + 5] ++ t.eng.digest[8 * k.val + 6] ++
          t.eng.digest[8 * k.val + 7] = (x k 64).2

/-- R254, R253: BC_HASH with KEY_LEN ≤ 72 and STR_IN_LEN ≤ 60 on a string that parses: STR_OUT holds the 60
characters `$2`, minor, `$`, cost, `$`, the encoding of the salt and the encoding of the first 23 digest
bytes under the EksSetup state, zero after them; COST_CTR is 2^cost; P, S and STATE_VALID are discarded;
all else but the report stays. -/
def Obligations.HashWritesTheHashString : Prop :=
  ∀ (s : State) (r : ParsedSalt) (text : List Byte), s.eng.keyLen.toNat ≤ 72 → s.eng.strInLen.toNat ≤ 60 →
    parseSalt (s.eng.strIn.toList.take s.eng.strInLen.toNat) = .ok r →
    text = [0x24#8, 0x32#8, r.minor, 0x24#8, BitVec.ofNat 8 (0x30 + r.cost / 10),
      BitVec.ofNat 8 (0x30 + r.cost % 10), 0x24#8] ++ r64Encode r.salt.toList ++
      r64Encode ((digestOf (eksSetupState (s.eng.key.toList.take s.eng.keyLen.toNat ++ [0x00#8])
        r.salt.toList r.cost).1).take 23) →
    text.length = 60 ∧
    ∃ t, exec .bcHash s = .next t ∧
      t = { s with eng := { s.eng with
        strOut := t.eng.strOut, strOutLen := 60#8, costCtr := BitVec.ofNat 32 (2 ^ r.cost)
        cipher := CipherState.zero, stateValid := false, pend := none, done := true, err := .none } } ∧
      ∀ k : Fin 64, t.eng.strOut[k] = text.getD k.val 0

/-- R255: BC_CHECK with KEY_LEN ≤ 72 and STR_IN_LEN ≤ 60 on a string that parses: MATCH is 1 exactly when
the string has 60 characters and equals what HashString makes of its first 29; COST_CTR is 2^cost; P, S
and STATE_VALID are discarded; STR_OUT and all else but the report stay. A mismatch is no error. -/
def Obligations.CheckComparesTheWholeString : Prop :=
  ∀ (s : State) (r : ParsedSalt) (text : List Byte), s.eng.keyLen.toNat ≤ 72 → s.eng.strInLen.toNat ≤ 60 →
    text = s.eng.strIn.toList.take s.eng.strInLen.toNat → parseSalt text = .ok r →
    ∃ h, hashString (s.eng.key.toList.take s.eng.keyLen.toNat ++ [0x00#8]) (text.take 29) = .ok h ∧
      exec .bcCheck s = .next { s with eng := { s.eng with
        matched := decide (text.length = 60 ∧ h.text = text), costCtr := BitVec.ofNat 32 (2 ^ r.cost)
        cipher := CipherState.zero, stateValid := false, pend := none, done := true, err := .none } }

/-- R256: BC_CHECK reports what BC_HASH on the first min(n, 29) characters reports, and MATCH = 1 exactly
when that BC_HASH writes a STR_OUT equal to the whole stored string. -/
def Obligations.CheckDelegatesToHash : Prop :=
  ∀ s t u : State, s.eng.strInLen.toNat ≤ 60 → exec .bcCheck s = .next t →
    exec .bcHash { s with eng := { s.eng with
      strInLen := BitVec.ofNat 8 (min s.eng.strInLen.toNat 29) } } = .next u →
    t.eng.err = u.eng.err ∧
    (t.eng.err = .none → (t.eng.matched = true ↔
      u.eng.strOutLen = s.eng.strInLen ∧ ∀ k : Fin 64, k.val < 60 → u.eng.strOut[k] = s.eng.strIn[k]))

/-- R259, correctness: when BC_HASH succeeds, BC_CHECK with the same key on the string it wrote ends
without an error and with MATCH = 1. -/
def Obligations.HashThenCheckMatches : Prop :=
  ∀ s t : State, exec .bcHash s = .next t → t.eng.err = .none →
    ∃ u, exec .bcCheck { t with eng := { t.eng with
        strIn := t.eng.strOut, strInLen := t.eng.strOutLen } } = .next u ∧
      u.eng.err = .none ∧ u.eng.matched = true

/-- R258: the minor version is validated and copied and affects nothing else: with another accepted minor
version at index 2, HashString gives the same string but for index 2, after the same loop count. -/
def Obligations.MinorVersionAffectsOnlyItself : Prop :=
  ∀ (pwKey s : List Byte) (m m' : Byte) (h : HashResult),
    m ∈ [0x61#8, 0x62#8, 0x78#8, 0x79#8] → m' ∈ [0x61#8, 0x62#8, 0x78#8, 0x79#8] → s.getD 2 0 = m →
    hashString pwKey s = .ok h →
    hashString pwKey (s.set 2 m') = .ok ⟨h.text.set 2 m', h.costCtr⟩

/-! ## Invariants -/

/-- R24: STATE_VALID is 1 only while P and S hold a state derived from the seed: every step keeps it, from
every state in which it holds. -/
def Obligations.StepKeepsSeedDerived : Prop :=
  ∀ s t : State, (s.eng.stateValid = true → SeedDerived s.eng.cipher) → step s = .next t →
    (t.eng.stateValid = true → SeedDerived t.eng.cipher)

/-- Every step keeps the invariant (R27, R33, R35, R36, R41, R283; the hosts' names in canonical form), from
every state in which it holds. -/
def Obligations.StepKeepsInvariant : Prop :=
  ∀ s t : State, s.Inv → step s = .next t → t.Inv

/-- The state after reset meets the invariant, and its STATE_VALID is 0 (R24, R320). -/
def Obligations.ResetMeetsInvariant : Prop :=
  State.reset.Inv ∧ State.reset.eng.stateValid = false

/-! ## Platform and host programs -/

/-- R302: instances cannot affect each other: a step of one leaves every other as it was, and steps of two
instances give one result in either order. -/
def Obligations.InstancesAreIndependent : Prop :=
  (∀ (p q : Platform) (j k : Nat), p.stepAt k = .next q → j ≠ k → q[j]? = p[j]?) ∧
  ∀ (p q r : Platform) (j k : Nat), j ≠ k → p.stepAt j = .next q → q.stepAt k = .next r →
    ∃ q', p.stepAt k = .next q' ∧ q'.stepAt j = .next r

/-- R302, R70: on a platform whose windows stand on 8 KiB boundaries, no two at one place, a write reaches
the one instance whose window holds the address, at the offset the address has in that window, and leaves
every other instance as it was. -/
def Obligations.PlatformWriteReachesOneInstance : Prop :=
  ∀ (p : Platform) (k off : Nat) (slot : Slot) (v : Word), p.wf = true → p[k]? = some slot → off < 0x2000 →
    (p.memWrite (slot.base + off) v)[k]? = some { slot with machine := { slot.machine with
      eng := slot.machine.eng.memWrite off v } } ∧
    ∀ j, j ≠ k → (p.memWrite (slot.base + off) v)[j]? = p[j]?

/-- R122: WAIT reads STATUS and goes back to its label exactly while BUSY = 1. Where the label stands twice in the
program, the place it goes back to is the first of them, which is the model's choice (log 14). -/
def Obligations.WaitLoopsWhileBusy : Prop :=
  ∀ (h : HostAgent) (e : Engine) (l st i : Nat), h.prog.idxOf? (.label l) = some i →
    ∃ h1, h.runLine e (rd .status st) = .next (h1, e) ∧ h1.line = h.line + 1 ∧ h1.prog = h.prog ∧
      lookupName h1.env st = some (e.statusWord.toNat : Int) ∧
      h1.runLine e (.bnz st 0x1 l) =
        if e.pend = none then .next ({ h1 with line := h.line + 2 }, e) else .next ({ h1 with line := i }, e)

/-- R124: on an idle instance the lines of LOADKEY leave the bytes as the password: KEY[0..KEY_LEN) is the
string loaded, for every string the buffer holds. -/
def Obligations.LoadKeyLoadsThePassword : Prop :=
  ∀ (s : State) (b : List Byte) (env : HostEnv), b.length ≤ 72 → s.eng.pend = none →
    s.hosts = [⟨loadKey b, 0, env⟩] → s.turns = [] →
    ∃ t, Host.Core.run core (loadKey b).length s = .next t ∧ t.eng.password = b ∧
      t.eng.pend = none ∧ t.eng.strIn = s.eng.strIn ∧ t.eng.salt = s.eng.salt
end

