-- ==== Sys2Proof/Laws/State.lean ====
section
/-! SUPPORT. One lemma for each field after each update of an instance, true by unfolding. -/

namespace Sys2Proof.Machine

/-! `finish` ends a command (10_state.md R44). -/

@[simp] theorem Engine.finish_cipher (e : Engine) (code : ErrorCode) : (e.finish code).cipher = e.cipher := rfl
@[simp] theorem Engine.finish_stateValid (e : Engine) (code : ErrorCode) : (e.finish code).stateValid = e.stateValid := rfl
@[simp] theorem Engine.finish_dataL (e : Engine) (code : ErrorCode) : (e.finish code).dataL = e.dataL := rfl
@[simp] theorem Engine.finish_dataR (e : Engine) (code : ErrorCode) : (e.finish code).dataR = e.dataR := rfl
@[simp] theorem Engine.finish_cost (e : Engine) (code : ErrorCode) : (e.finish code).cost = e.cost := rfl
@[simp] theorem Engine.finish_minor (e : Engine) (code : ErrorCode) : (e.finish code).minor = e.minor := rfl
@[simp] theorem Engine.finish_key (e : Engine) (code : ErrorCode) : (e.finish code).key = e.key := rfl
@[simp] theorem Engine.finish_keyLen (e : Engine) (code : ErrorCode) : (e.finish code).keyLen = e.keyLen := rfl
@[simp] theorem Engine.finish_salt (e : Engine) (code : ErrorCode) : (e.finish code).salt = e.salt := rfl
@[simp] theorem Engine.finish_bytes (e : Engine) (code : ErrorCode) : (e.finish code).bytes = e.bytes := rfl
@[simp] theorem Engine.finish_bytesLen (e : Engine) (code : ErrorCode) : (e.finish code).bytesLen = e.bytesLen := rfl
@[simp] theorem Engine.finish_strIn (e : Engine) (code : ErrorCode) : (e.finish code).strIn = e.strIn := rfl
@[simp] theorem Engine.finish_strInLen (e : Engine) (code : ErrorCode) : (e.finish code).strInLen = e.strInLen := rfl
@[simp] theorem Engine.finish_strOut (e : Engine) (code : ErrorCode) : (e.finish code).strOut = e.strOut := rfl
@[simp] theorem Engine.finish_strOutLen (e : Engine) (code : ErrorCode) : (e.finish code).strOutLen = e.strOutLen := rfl
@[simp] theorem Engine.finish_digest (e : Engine) (code : ErrorCode) : (e.finish code).digest = e.digest := rfl
@[simp] theorem Engine.finish_costCtr (e : Engine) (code : ErrorCode) : (e.finish code).costCtr = e.costCtr := rfl
@[simp] theorem Engine.finish_done (e : Engine) (code : ErrorCode) : (e.finish code).done = true := rfl
@[simp] theorem Engine.finish_matched (e : Engine) (code : ErrorCode) : (e.finish code).matched = e.matched := rfl
@[simp] theorem Engine.finish_werr (e : Engine) (code : ErrorCode) : (e.finish code).werr = e.werr := rfl
@[simp] theorem Engine.finish_err (e : Engine) (code : ErrorCode) : (e.finish code).err = code := rfl
@[simp] theorem Engine.finish_lastOp (e : Engine) (code : ErrorCode) : (e.finish code).lastOp = e.lastOp := rfl
@[simp] theorem Engine.finish_pend (e : Engine) (code : ErrorCode) : (e.finish code).pend = none := rfl
@[simp] theorem Engine.finish_drawStream (e : Engine) (code : ErrorCode) : (e.finish code).drawStream = e.drawStream := rfl
@[simp] theorem Engine.finish_rngDraws (e : Engine) (code : ErrorCode) : (e.finish code).rngDraws = e.rngDraws := rfl
@[simp] theorem Engine.finish_busyReads (e : Engine) (code : ErrorCode) : (e.finish code).busyReads = e.busyReads := rfl

/-! `withCipher` writes P, S and STATE_VALID. -/

@[simp] theorem Engine.withCipher_cipher (e : Engine) (c : CipherState) (v : Bool) : (e.withCipher c v).cipher = c := rfl
@[simp] theorem Engine.withCipher_stateValid (e : Engine) (c : CipherState) (v : Bool) : (e.withCipher c v).stateValid = v := rfl
@[simp] theorem Engine.withCipher_dataL (e : Engine) (c : CipherState) (v : Bool) : (e.withCipher c v).dataL = e.dataL := rfl
@[simp] theorem Engine.withCipher_dataR (e : Engine) (c : CipherState) (v : Bool) : (e.withCipher c v).dataR = e.dataR := rfl
@[simp] theorem Engine.withCipher_cost (e : Engine) (c : CipherState) (v : Bool) : (e.withCipher c v).cost = e.cost := rfl
@[simp] theorem Engine.withCipher_minor (e : Engine) (c : CipherState) (v : Bool) : (e.withCipher c v).minor = e.minor := rfl
@[simp] theorem Engine.withCipher_key (e : Engine) (c : CipherState) (v : Bool) : (e.withCipher c v).key = e.key := rfl
@[simp] theorem Engine.withCipher_keyLen (e : Engine) (c : CipherState) (v : Bool) : (e.withCipher c v).keyLen = e.keyLen := rfl
@[simp] theorem Engine.withCipher_salt (e : Engine) (c : CipherState) (v : Bool) : (e.withCipher c v).salt = e.salt := rfl
@[simp] theorem Engine.withCipher_bytes (e : Engine) (c : CipherState) (v : Bool) : (e.withCipher c v).bytes = e.bytes := rfl
@[simp] theorem Engine.withCipher_bytesLen (e : Engine) (c : CipherState) (v : Bool) : (e.withCipher c v).bytesLen = e.bytesLen := rfl
@[simp] theorem Engine.withCipher_strIn (e : Engine) (c : CipherState) (v : Bool) : (e.withCipher c v).strIn = e.strIn := rfl
@[simp] theorem Engine.withCipher_strInLen (e : Engine) (c : CipherState) (v : Bool) : (e.withCipher c v).strInLen = e.strInLen := rfl
@[simp] theorem Engine.withCipher_strOut (e : Engine) (c : CipherState) (v : Bool) : (e.withCipher c v).strOut = e.strOut := rfl
@[simp] theorem Engine.withCipher_strOutLen (e : Engine) (c : CipherState) (v : Bool) : (e.withCipher c v).strOutLen = e.strOutLen := rfl
@[simp] theorem Engine.withCipher_digest (e : Engine) (c : CipherState) (v : Bool) : (e.withCipher c v).digest = e.digest := rfl
@[simp] theorem Engine.withCipher_costCtr (e : Engine) (c : CipherState) (v : Bool) : (e.withCipher c v).costCtr = e.costCtr := rfl
@[simp] theorem Engine.withCipher_done (e : Engine) (c : CipherState) (v : Bool) : (e.withCipher c v).done = e.done := rfl
@[simp] theorem Engine.withCipher_matched (e : Engine) (c : CipherState) (v : Bool) : (e.withCipher c v).matched = e.matched := rfl
@[simp] theorem Engine.withCipher_werr (e : Engine) (c : CipherState) (v : Bool) : (e.withCipher c v).werr = e.werr := rfl
@[simp] theorem Engine.withCipher_err (e : Engine) (c : CipherState) (v : Bool) : (e.withCipher c v).err = e.err := rfl
@[simp] theorem Engine.withCipher_lastOp (e : Engine) (c : CipherState) (v : Bool) : (e.withCipher c v).lastOp = e.lastOp := rfl
@[simp] theorem Engine.withCipher_pend (e : Engine) (c : CipherState) (v : Bool) : (e.withCipher c v).pend = e.pend := rfl
@[simp] theorem Engine.withCipher_drawStream (e : Engine) (c : CipherState) (v : Bool) : (e.withCipher c v).drawStream = e.drawStream := rfl
@[simp] theorem Engine.withCipher_rngDraws (e : Engine) (c : CipherState) (v : Bool) : (e.withCipher c v).rngDraws = e.rngDraws := rfl
@[simp] theorem Engine.withCipher_busyReads (e : Engine) (c : CipherState) (v : Bool) : (e.withCipher c v).busyReads = e.busyReads := rfl

/-! `discard` discards the cipher state. -/

@[simp] theorem Engine.discard_cipher (e : Engine) : e.discard.cipher = CipherState.zero := rfl
@[simp] theorem Engine.discard_stateValid (e : Engine) : e.discard.stateValid = false := rfl
@[simp] theorem Engine.discard_dataL (e : Engine) : e.discard.dataL = e.dataL := rfl
@[simp] theorem Engine.discard_dataR (e : Engine) : e.discard.dataR = e.dataR := rfl
@[simp] theorem Engine.discard_cost (e : Engine) : e.discard.cost = e.cost := rfl
@[simp] theorem Engine.discard_minor (e : Engine) : e.discard.minor = e.minor := rfl
@[simp] theorem Engine.discard_key (e : Engine) : e.discard.key = e.key := rfl
@[simp] theorem Engine.discard_keyLen (e : Engine) : e.discard.keyLen = e.keyLen := rfl
@[simp] theorem Engine.discard_salt (e : Engine) : e.discard.salt = e.salt := rfl
@[simp] theorem Engine.discard_bytes (e : Engine) : e.discard.bytes = e.bytes := rfl
@[simp] theorem Engine.discard_bytesLen (e : Engine) : e.discard.bytesLen = e.bytesLen := rfl
@[simp] theorem Engine.discard_strIn (e : Engine) : e.discard.strIn = e.strIn := rfl
@[simp] theorem Engine.discard_strInLen (e : Engine) : e.discard.strInLen = e.strInLen := rfl
@[simp] theorem Engine.discard_strOut (e : Engine) : e.discard.strOut = e.strOut := rfl
@[simp] theorem Engine.discard_strOutLen (e : Engine) : e.discard.strOutLen = e.strOutLen := rfl
@[simp] theorem Engine.discard_digest (e : Engine) : e.discard.digest = e.digest := rfl
@[simp] theorem Engine.discard_costCtr (e : Engine) : e.discard.costCtr = e.costCtr := rfl
@[simp] theorem Engine.discard_done (e : Engine) : e.discard.done = e.done := rfl
@[simp] theorem Engine.discard_matched (e : Engine) : e.discard.matched = e.matched := rfl
@[simp] theorem Engine.discard_werr (e : Engine) : e.discard.werr = e.werr := rfl
@[simp] theorem Engine.discard_err (e : Engine) : e.discard.err = e.err := rfl
@[simp] theorem Engine.discard_lastOp (e : Engine) : e.discard.lastOp = e.lastOp := rfl
@[simp] theorem Engine.discard_pend (e : Engine) : e.discard.pend = e.pend := rfl
@[simp] theorem Engine.discard_drawStream (e : Engine) : e.discard.drawStream = e.drawStream := rfl
@[simp] theorem Engine.discard_rngDraws (e : Engine) : e.discard.rngDraws = e.rngDraws := rfl
@[simp] theorem Engine.discard_busyReads (e : Engine) : e.discard.busyReads = e.busyReads := rfl

/-! `putStrOut` writes a result to STR_OUT (10_state.md R33). -/

@[simp] theorem Engine.putStrOut_cipher (e : Engine) (out : List Byte) : (e.putStrOut out).cipher = e.cipher := rfl
@[simp] theorem Engine.putStrOut_stateValid (e : Engine) (out : List Byte) : (e.putStrOut out).stateValid = e.stateValid := rfl
@[simp] theorem Engine.putStrOut_dataL (e : Engine) (out : List Byte) : (e.putStrOut out).dataL = e.dataL := rfl
@[simp] theorem Engine.putStrOut_dataR (e : Engine) (out : List Byte) : (e.putStrOut out).dataR = e.dataR := rfl
@[simp] theorem Engine.putStrOut_cost (e : Engine) (out : List Byte) : (e.putStrOut out).cost = e.cost := rfl
@[simp] theorem Engine.putStrOut_minor (e : Engine) (out : List Byte) : (e.putStrOut out).minor = e.minor := rfl
@[simp] theorem Engine.putStrOut_key (e : Engine) (out : List Byte) : (e.putStrOut out).key = e.key := rfl
@[simp] theorem Engine.putStrOut_keyLen (e : Engine) (out : List Byte) : (e.putStrOut out).keyLen = e.keyLen := rfl
@[simp] theorem Engine.putStrOut_salt (e : Engine) (out : List Byte) : (e.putStrOut out).salt = e.salt := rfl
@[simp] theorem Engine.putStrOut_bytes (e : Engine) (out : List Byte) : (e.putStrOut out).bytes = e.bytes := rfl
@[simp] theorem Engine.putStrOut_bytesLen (e : Engine) (out : List Byte) : (e.putStrOut out).bytesLen = e.bytesLen := rfl
@[simp] theorem Engine.putStrOut_strIn (e : Engine) (out : List Byte) : (e.putStrOut out).strIn = e.strIn := rfl
@[simp] theorem Engine.putStrOut_strInLen (e : Engine) (out : List Byte) : (e.putStrOut out).strInLen = e.strInLen := rfl
@[simp] theorem Engine.putStrOut_strOut (e : Engine) (out : List Byte) : (e.putStrOut out).strOut = padTo 64 out := rfl
@[simp] theorem Engine.putStrOut_strOutLen (e : Engine) (out : List Byte) : (e.putStrOut out).strOutLen = BitVec.ofNat 8 out.length := rfl
@[simp] theorem Engine.putStrOut_digest (e : Engine) (out : List Byte) : (e.putStrOut out).digest = e.digest := rfl
@[simp] theorem Engine.putStrOut_costCtr (e : Engine) (out : List Byte) : (e.putStrOut out).costCtr = e.costCtr := rfl
@[simp] theorem Engine.putStrOut_done (e : Engine) (out : List Byte) : (e.putStrOut out).done = e.done := rfl
@[simp] theorem Engine.putStrOut_matched (e : Engine) (out : List Byte) : (e.putStrOut out).matched = e.matched := rfl
@[simp] theorem Engine.putStrOut_werr (e : Engine) (out : List Byte) : (e.putStrOut out).werr = e.werr := rfl
@[simp] theorem Engine.putStrOut_err (e : Engine) (out : List Byte) : (e.putStrOut out).err = e.err := rfl
@[simp] theorem Engine.putStrOut_lastOp (e : Engine) (out : List Byte) : (e.putStrOut out).lastOp = e.lastOp := rfl
@[simp] theorem Engine.putStrOut_pend (e : Engine) (out : List Byte) : (e.putStrOut out).pend = e.pend := rfl
@[simp] theorem Engine.putStrOut_drawStream (e : Engine) (out : List Byte) : (e.putStrOut out).drawStream = e.drawStream := rfl
@[simp] theorem Engine.putStrOut_rngDraws (e : Engine) (out : List Byte) : (e.putStrOut out).rngDraws = e.rngDraws := rfl
@[simp] theorem Engine.putStrOut_busyReads (e : Engine) (out : List Byte) : (e.putStrOut out).busyReads = e.busyReads := rfl

/-! `putBytes` writes a result to BYTES (10_state.md R31). -/

@[simp] theorem Engine.putBytes_cipher (e : Engine) (out : List Byte) : (e.putBytes out).cipher = e.cipher := rfl
@[simp] theorem Engine.putBytes_stateValid (e : Engine) (out : List Byte) : (e.putBytes out).stateValid = e.stateValid := rfl
@[simp] theorem Engine.putBytes_dataL (e : Engine) (out : List Byte) : (e.putBytes out).dataL = e.dataL := rfl
@[simp] theorem Engine.putBytes_dataR (e : Engine) (out : List Byte) : (e.putBytes out).dataR = e.dataR := rfl
@[simp] theorem Engine.putBytes_cost (e : Engine) (out : List Byte) : (e.putBytes out).cost = e.cost := rfl
@[simp] theorem Engine.putBytes_minor (e : Engine) (out : List Byte) : (e.putBytes out).minor = e.minor := rfl
@[simp] theorem Engine.putBytes_key (e : Engine) (out : List Byte) : (e.putBytes out).key = e.key := rfl
@[simp] theorem Engine.putBytes_keyLen (e : Engine) (out : List Byte) : (e.putBytes out).keyLen = e.keyLen := rfl
@[simp] theorem Engine.putBytes_salt (e : Engine) (out : List Byte) : (e.putBytes out).salt = e.salt := rfl
@[simp] theorem Engine.putBytes_bytes (e : Engine) (out : List Byte) : (e.putBytes out).bytes = padTo 48 out := rfl
@[simp] theorem Engine.putBytes_bytesLen (e : Engine) (out : List Byte) : (e.putBytes out).bytesLen = BitVec.ofNat 8 out.length := rfl
@[simp] theorem Engine.putBytes_strIn (e : Engine) (out : List Byte) : (e.putBytes out).strIn = e.strIn := rfl
@[simp] theorem Engine.putBytes_strInLen (e : Engine) (out : List Byte) : (e.putBytes out).strInLen = e.strInLen := rfl
@[simp] theorem Engine.putBytes_strOut (e : Engine) (out : List Byte) : (e.putBytes out).strOut = e.strOut := rfl
@[simp] theorem Engine.putBytes_strOutLen (e : Engine) (out : List Byte) : (e.putBytes out).strOutLen = e.strOutLen := rfl
@[simp] theorem Engine.putBytes_digest (e : Engine) (out : List Byte) : (e.putBytes out).digest = e.digest := rfl
@[simp] theorem Engine.putBytes_costCtr (e : Engine) (out : List Byte) : (e.putBytes out).costCtr = e.costCtr := rfl
@[simp] theorem Engine.putBytes_done (e : Engine) (out : List Byte) : (e.putBytes out).done = e.done := rfl
@[simp] theorem Engine.putBytes_matched (e : Engine) (out : List Byte) : (e.putBytes out).matched = e.matched := rfl
@[simp] theorem Engine.putBytes_werr (e : Engine) (out : List Byte) : (e.putBytes out).werr = e.werr := rfl
@[simp] theorem Engine.putBytes_err (e : Engine) (out : List Byte) : (e.putBytes out).err = e.err := rfl
@[simp] theorem Engine.putBytes_lastOp (e : Engine) (out : List Byte) : (e.putBytes out).lastOp = e.lastOp := rfl
@[simp] theorem Engine.putBytes_pend (e : Engine) (out : List Byte) : (e.putBytes out).pend = e.pend := rfl
@[simp] theorem Engine.putBytes_drawStream (e : Engine) (out : List Byte) : (e.putBytes out).drawStream = e.drawStream := rfl
@[simp] theorem Engine.putBytes_rngDraws (e : Engine) (out : List Byte) : (e.putBytes out).rngDraws = e.rngDraws := rfl
@[simp] theorem Engine.putBytes_busyReads (e : Engine) (out : List Byte) : (e.putBytes out).busyReads = e.busyReads := rfl

/-! `issue` issues a word (10_state.md R41). -/

@[simp] theorem Engine.issue_cipher (e : Engine) (w : Word) : (e.issue w).cipher = e.cipher := rfl
@[simp] theorem Engine.issue_stateValid (e : Engine) (w : Word) : (e.issue w).stateValid = e.stateValid := rfl
@[simp] theorem Engine.issue_dataL (e : Engine) (w : Word) : (e.issue w).dataL = e.dataL := rfl
@[simp] theorem Engine.issue_dataR (e : Engine) (w : Word) : (e.issue w).dataR = e.dataR := rfl
@[simp] theorem Engine.issue_cost (e : Engine) (w : Word) : (e.issue w).cost = e.cost := rfl
@[simp] theorem Engine.issue_minor (e : Engine) (w : Word) : (e.issue w).minor = e.minor := rfl
@[simp] theorem Engine.issue_key (e : Engine) (w : Word) : (e.issue w).key = e.key := rfl
@[simp] theorem Engine.issue_keyLen (e : Engine) (w : Word) : (e.issue w).keyLen = e.keyLen := rfl
@[simp] theorem Engine.issue_salt (e : Engine) (w : Word) : (e.issue w).salt = e.salt := rfl
@[simp] theorem Engine.issue_bytes (e : Engine) (w : Word) : (e.issue w).bytes = e.bytes := rfl
@[simp] theorem Engine.issue_bytesLen (e : Engine) (w : Word) : (e.issue w).bytesLen = e.bytesLen := rfl
@[simp] theorem Engine.issue_strIn (e : Engine) (w : Word) : (e.issue w).strIn = e.strIn := rfl
@[simp] theorem Engine.issue_strInLen (e : Engine) (w : Word) : (e.issue w).strInLen = e.strInLen := rfl
@[simp] theorem Engine.issue_strOut (e : Engine) (w : Word) : (e.issue w).strOut = e.strOut := rfl
@[simp] theorem Engine.issue_strOutLen (e : Engine) (w : Word) : (e.issue w).strOutLen = e.strOutLen := rfl
@[simp] theorem Engine.issue_digest (e : Engine) (w : Word) : (e.issue w).digest = e.digest := rfl
@[simp] theorem Engine.issue_costCtr (e : Engine) (w : Word) : (e.issue w).costCtr = if clearsCostCtr (opField w) then 0 else e.costCtr := rfl
@[simp] theorem Engine.issue_done (e : Engine) (w : Word) : (e.issue w).done = false := rfl
@[simp] theorem Engine.issue_matched (e : Engine) (w : Word) : (e.issue w).matched = false := rfl
@[simp] theorem Engine.issue_werr (e : Engine) (w : Word) : (e.issue w).werr = e.werr := rfl
@[simp] theorem Engine.issue_err (e : Engine) (w : Word) : (e.issue w).err = .none := rfl
@[simp] theorem Engine.issue_lastOp (e : Engine) (w : Word) : (e.issue w).lastOp = opField w := rfl
@[simp] theorem Engine.issue_pend (e : Engine) (w : Word) : (e.issue w).pend = some w := rfl
@[simp] theorem Engine.issue_drawStream (e : Engine) (w : Word) : (e.issue w).drawStream = e.drawStream := rfl
@[simp] theorem Engine.issue_rngDraws (e : Engine) (w : Word) : (e.issue w).rngDraws = e.rngDraws := rfl
@[simp] theorem Engine.issue_busyReads (e : Engine) (w : Word) : (e.issue w).busyReads = e.busyReads := rfl

/-! `writeStatus` writes STATUS (10_state.md R36). -/

@[simp] theorem Engine.writeStatus_cipher (e : Engine) (v : Word) : (e.writeStatus v).cipher = e.cipher := rfl
@[simp] theorem Engine.writeStatus_stateValid (e : Engine) (v : Word) : (e.writeStatus v).stateValid = e.stateValid := rfl
@[simp] theorem Engine.writeStatus_dataL (e : Engine) (v : Word) : (e.writeStatus v).dataL = e.dataL := rfl
@[simp] theorem Engine.writeStatus_dataR (e : Engine) (v : Word) : (e.writeStatus v).dataR = e.dataR := rfl
@[simp] theorem Engine.writeStatus_cost (e : Engine) (v : Word) : (e.writeStatus v).cost = e.cost := rfl
@[simp] theorem Engine.writeStatus_minor (e : Engine) (v : Word) : (e.writeStatus v).minor = e.minor := rfl
@[simp] theorem Engine.writeStatus_key (e : Engine) (v : Word) : (e.writeStatus v).key = e.key := rfl
@[simp] theorem Engine.writeStatus_keyLen (e : Engine) (v : Word) : (e.writeStatus v).keyLen = e.keyLen := rfl
@[simp] theorem Engine.writeStatus_salt (e : Engine) (v : Word) : (e.writeStatus v).salt = e.salt := rfl
@[simp] theorem Engine.writeStatus_bytes (e : Engine) (v : Word) : (e.writeStatus v).bytes = e.bytes := rfl
@[simp] theorem Engine.writeStatus_bytesLen (e : Engine) (v : Word) : (e.writeStatus v).bytesLen = e.bytesLen := rfl
@[simp] theorem Engine.writeStatus_strIn (e : Engine) (v : Word) : (e.writeStatus v).strIn = e.strIn := rfl
@[simp] theorem Engine.writeStatus_strInLen (e : Engine) (v : Word) : (e.writeStatus v).strInLen = e.strInLen := rfl
@[simp] theorem Engine.writeStatus_strOut (e : Engine) (v : Word) : (e.writeStatus v).strOut = e.strOut := rfl
@[simp] theorem Engine.writeStatus_strOutLen (e : Engine) (v : Word) : (e.writeStatus v).strOutLen = e.strOutLen := rfl
@[simp] theorem Engine.writeStatus_digest (e : Engine) (v : Word) : (e.writeStatus v).digest = e.digest := rfl
@[simp] theorem Engine.writeStatus_costCtr (e : Engine) (v : Word) : (e.writeStatus v).costCtr = e.costCtr := rfl
@[simp] theorem Engine.writeStatus_done (e : Engine) (v : Word) : (e.writeStatus v).done = e.done := rfl
@[simp] theorem Engine.writeStatus_matched (e : Engine) (v : Word) : (e.writeStatus v).matched = e.matched := rfl
@[simp] theorem Engine.writeStatus_werr (e : Engine) (v : Word) : (e.writeStatus v).werr = (e.werr && !v.getLsbD 4) := rfl
@[simp] theorem Engine.writeStatus_err (e : Engine) (v : Word) : (e.writeStatus v).err = e.err := rfl
@[simp] theorem Engine.writeStatus_lastOp (e : Engine) (v : Word) : (e.writeStatus v).lastOp = e.lastOp := rfl
@[simp] theorem Engine.writeStatus_pend (e : Engine) (v : Word) : (e.writeStatus v).pend = e.pend := rfl
@[simp] theorem Engine.writeStatus_drawStream (e : Engine) (v : Word) : (e.writeStatus v).drawStream = e.drawStream := rfl
@[simp] theorem Engine.writeStatus_rngDraws (e : Engine) (v : Word) : (e.writeStatus v).rngDraws = e.rngDraws := rfl
@[simp] theorem Engine.writeStatus_busyReads (e : Engine) (v : Word) : (e.writeStatus v).busyReads = e.busyReads := rfl

/-! `drawSalt` draws SALT (60_exceptions.md R300). -/

@[simp] theorem Engine.drawSalt_cipher (e : Engine) : e.drawSalt.cipher = e.cipher := rfl
@[simp] theorem Engine.drawSalt_stateValid (e : Engine) : e.drawSalt.stateValid = e.stateValid := rfl
@[simp] theorem Engine.drawSalt_dataL (e : Engine) : e.drawSalt.dataL = e.dataL := rfl
@[simp] theorem Engine.drawSalt_dataR (e : Engine) : e.drawSalt.dataR = e.dataR := rfl
@[simp] theorem Engine.drawSalt_cost (e : Engine) : e.drawSalt.cost = e.cost := rfl
@[simp] theorem Engine.drawSalt_minor (e : Engine) : e.drawSalt.minor = e.minor := rfl
@[simp] theorem Engine.drawSalt_key (e : Engine) : e.drawSalt.key = e.key := rfl
@[simp] theorem Engine.drawSalt_keyLen (e : Engine) : e.drawSalt.keyLen = e.keyLen := rfl
@[simp] theorem Engine.drawSalt_salt (e : Engine) : e.drawSalt.salt = Config.rngDraw e.drawStream e.rngDraws := rfl
@[simp] theorem Engine.drawSalt_bytes (e : Engine) : e.drawSalt.bytes = e.bytes := rfl
@[simp] theorem Engine.drawSalt_bytesLen (e : Engine) : e.drawSalt.bytesLen = e.bytesLen := rfl
@[simp] theorem Engine.drawSalt_strIn (e : Engine) : e.drawSalt.strIn = e.strIn := rfl
@[simp] theorem Engine.drawSalt_strInLen (e : Engine) : e.drawSalt.strInLen = e.strInLen := rfl
@[simp] theorem Engine.drawSalt_strOut (e : Engine) : e.drawSalt.strOut = e.strOut := rfl
@[simp] theorem Engine.drawSalt_strOutLen (e : Engine) : e.drawSalt.strOutLen = e.strOutLen := rfl
@[simp] theorem Engine.drawSalt_digest (e : Engine) : e.drawSalt.digest = e.digest := rfl
@[simp] theorem Engine.drawSalt_costCtr (e : Engine) : e.drawSalt.costCtr = e.costCtr := rfl
@[simp] theorem Engine.drawSalt_done (e : Engine) : e.drawSalt.done = e.done := rfl
@[simp] theorem Engine.drawSalt_matched (e : Engine) : e.drawSalt.matched = e.matched := rfl
@[simp] theorem Engine.drawSalt_werr (e : Engine) : e.drawSalt.werr = e.werr := rfl
@[simp] theorem Engine.drawSalt_err (e : Engine) : e.drawSalt.err = e.err := rfl
@[simp] theorem Engine.drawSalt_lastOp (e : Engine) : e.drawSalt.lastOp = e.lastOp := rfl
@[simp] theorem Engine.drawSalt_pend (e : Engine) : e.drawSalt.pend = e.pend := rfl
@[simp] theorem Engine.drawSalt_drawStream (e : Engine) : e.drawSalt.drawStream = e.drawStream := rfl
@[simp] theorem Engine.drawSalt_rngDraws (e : Engine) : e.drawSalt.rngDraws = e.rngDraws + 1 := rfl
@[simp] theorem Engine.drawSalt_busyReads (e : Engine) : e.drawSalt.busyReads = e.busyReads := rfl

/-! RESET (70_reset_and_hazards.md R320): every field at its reset value, the model's own counts kept. -/

@[simp] theorem Engine.applyReset_cipher (e : Engine) : e.applyReset.cipher = Engine.reset.cipher := rfl
@[simp] theorem Engine.applyReset_stateValid (e : Engine) : e.applyReset.stateValid = Engine.reset.stateValid := rfl
@[simp] theorem Engine.applyReset_dataL (e : Engine) : e.applyReset.dataL = Engine.reset.dataL := rfl
@[simp] theorem Engine.applyReset_dataR (e : Engine) : e.applyReset.dataR = Engine.reset.dataR := rfl
@[simp] theorem Engine.applyReset_cost (e : Engine) : e.applyReset.cost = Engine.reset.cost := rfl
@[simp] theorem Engine.applyReset_minor (e : Engine) : e.applyReset.minor = Engine.reset.minor := rfl
@[simp] theorem Engine.applyReset_key (e : Engine) : e.applyReset.key = Engine.reset.key := rfl
@[simp] theorem Engine.applyReset_keyLen (e : Engine) : e.applyReset.keyLen = Engine.reset.keyLen := rfl
@[simp] theorem Engine.applyReset_salt (e : Engine) : e.applyReset.salt = Engine.reset.salt := rfl
@[simp] theorem Engine.applyReset_bytes (e : Engine) : e.applyReset.bytes = Engine.reset.bytes := rfl
@[simp] theorem Engine.applyReset_bytesLen (e : Engine) : e.applyReset.bytesLen = Engine.reset.bytesLen := rfl
@[simp] theorem Engine.applyReset_strIn (e : Engine) : e.applyReset.strIn = Engine.reset.strIn := rfl
@[simp] theorem Engine.applyReset_strInLen (e : Engine) : e.applyReset.strInLen = Engine.reset.strInLen := rfl
@[simp] theorem Engine.applyReset_strOut (e : Engine) : e.applyReset.strOut = Engine.reset.strOut := rfl
@[simp] theorem Engine.applyReset_strOutLen (e : Engine) : e.applyReset.strOutLen = Engine.reset.strOutLen := rfl
@[simp] theorem Engine.applyReset_digest (e : Engine) : e.applyReset.digest = Engine.reset.digest := rfl
@[simp] theorem Engine.applyReset_costCtr (e : Engine) : e.applyReset.costCtr = Engine.reset.costCtr := rfl
@[simp] theorem Engine.applyReset_done (e : Engine) : e.applyReset.done = Engine.reset.done := rfl
@[simp] theorem Engine.applyReset_matched (e : Engine) : e.applyReset.matched = Engine.reset.matched := rfl
@[simp] theorem Engine.applyReset_werr (e : Engine) : e.applyReset.werr = Engine.reset.werr := rfl
@[simp] theorem Engine.applyReset_err (e : Engine) : e.applyReset.err = Engine.reset.err := rfl
@[simp] theorem Engine.applyReset_lastOp (e : Engine) : e.applyReset.lastOp = Engine.reset.lastOp := rfl
@[simp] theorem Engine.applyReset_pend (e : Engine) : e.applyReset.pend = Engine.reset.pend := rfl
@[simp] theorem Engine.applyReset_drawStream (e : Engine) : e.applyReset.drawStream = e.drawStream := rfl
@[simp] theorem Engine.applyReset_rngDraws (e : Engine) : e.applyReset.rngDraws = e.rngDraws := rfl
@[simp] theorem Engine.applyReset_busyReads (e : Engine) : e.applyReset.busyReads = e.busyReads := rfl

/-! The machine's updates. -/

@[simp] theorem raiseError_eng (code : ErrorCode) (s : State) : (raiseError code s).eng = s.eng.finish code := rfl
@[simp] theorem raiseError_hosts (code : ErrorCode) (s : State) : (raiseError code s).hosts = s.hosts := rfl
@[simp] theorem raiseError_turns (code : ErrorCode) (s : State) : (raiseError code s).turns = s.turns := rfl
@[simp] theorem resetTurn_eng (s : State) : (resetTurn s).eng = s.eng.applyReset := rfl
@[simp] theorem resetTurn_hosts (s : State) : (resetTurn s).hosts = s.hosts := rfl
@[simp] theorem resetTurn_turns (s : State) : (resetTurn s).turns = s.turns := rfl

/-- The turn popped leaves the instance and the hosts alone. -/
@[simp] theorem popTurn_eng (s : State) : (popTurn s).2.eng = s.eng := by
  unfold popTurn; split <;> rfl
@[simp] theorem popTurn_hosts (s : State) : (popTurn s).2.hosts = s.hosts := by
  unfold popTurn; split <;> rfl

theorem popTurn_cons {s : State} {t : Turn} {rest : List Turn} (h : s.turns = t :: rest) :
    popTurn s = (t, { s with turns := rest }) := by
  simp [popTurn, h]

theorem popTurn_nil {s : State} (h : s.turns = []) : popTurn s = (defaultTurn s, s) := by
  simp [popTurn, h]

/-- BUSY in terms of PEND (10_state.md R39). -/
theorem Engine.busy_eq_true {e : Engine} : e.busy = true ↔ e.pend ≠ none := by
  simp [Engine.busy, Option.isSome_iff_ne_none]

theorem Engine.busy_eq_false {e : Engine} : e.busy = false ↔ e.pend = none := by
  simp [Engine.busy]

end Sys2Proof.Machine
end

