-- ==== Sys2Proof/Laws/Ops.lean ====
section
/-! SUPPORT. What the shared operations do, said once: how a command ends, buffer fills, byte order,
repetition, cipher-state words. -/

namespace Sys2Proof.Machine

/-! ## How a command ends -/

@[simp] theorem complete_ok (s : State) (e : Engine) :
    complete s (.ok e) = .next { s with eng := e.finish .none } := rfl

@[simp] theorem complete_error (s : State) (code : ErrorCode) :
    complete s (.error code) = .next (raiseError code s) := rfl

/-- All a completion can do: write every result with code 0, or nothing but the report. -/
theorem complete_cases {s t : State} {body : Except ErrorCode Engine} (h : complete s body = .next t) :
    (∃ e, body = .ok e ∧ t = { s with eng := e.finish .none }) ∨
    (∃ code, body = .error code ∧ t = { s with eng := s.eng.finish code }) := by
  cases body with
  | ok e => exact .inl ⟨e, rfl, by simpa using h.symm⟩
  | error code => exact .inr ⟨code, rfl, by simpa [raiseError] using h.symm⟩

/-- A completion always ends in a next state. -/
theorem complete_next (s : State) (body : Except ErrorCode Engine) : ∃ t, complete s body = .next t := by
  cases body <;> simp

/-- The code a completion reports. -/
def resultCode (body : Except ErrorCode Engine) : ErrorCode :=
  match body with
  | .ok _ => .none
  | .error code => code

theorem complete_err {s t : State} {body : Except ErrorCode Engine} (h : complete s body = .next t) :
    t.eng.err = resultCode body := by
  rcases complete_cases h with ⟨e, rfl, rfl⟩ | ⟨code, rfl, rfl⟩ <;> rfl

/-! ## Buffers -/

theorem padList_getElem (n : Nat) (l : List Byte) (i : Nat) (h : i < (padList n l).length) :
    (padList n l)[i] = l.getD i 0 := by
  have hn : i < n := by simpa [padList_length] using h
  simp only [padList, List.getElem_append, List.length_take, List.getElem_take, List.getElem_replicate,
    List.getD_eq_getElem?_getD]
  split
  · rw [List.getElem?_eq_getElem (by omega)]; rfl
  · rw [List.getElem?_eq_none (by omega)]; rfl

/-- A filled buffer, byte by byte. -/
theorem padTo_getElem (n : Nat) (l : List Byte) (i : Nat) (h : i < n) : (padTo n l)[i] = l.getD i 0 := by
  simp [padTo, padList_getElem]

theorem padTo_toList (n : Nat) (l : List Byte) : (padTo n l).toList = padList n l := by
  simp [padTo]

/-- A list of exactly the capacity fills the buffer. -/
theorem padList_self {n : Nat} {l : List Byte} (h : l.length = n) : padList n l = l := by
  subst h; simp [padList]

theorem padTo_toList_self {n : Nat} {l : List Byte} (h : l.length = n) : (padTo n l).toList = l := by
  rw [padTo_toList, padList_self h]

/-- Filling a buffer with its own bytes. -/
theorem padTo_self {n : Nat} (v : Vector Byte n) : padTo n v.toList = v := by
  apply Vector.toList_inj.mp
  rw [padTo_toList_self (by simp)]

/-- The bytes a result wrote are the first bytes of the buffer. -/
theorem firstBytes_padTo {n : Nat} {l : List Byte} (h : l.length ≤ n) : firstBytes (padTo n l) l.length = l := by
  simp [firstBytes, padTo_toList, padList, List.take_of_length_le h]

theorem firstBytes_length {cap : Nat} (b : Vector Byte cap) (n : Nat) : (firstBytes b n).length = min n cap := by
  simp [firstBytes]

/-- The first bytes depend on those bytes only. -/
theorem firstBytes_congr {cap : Nat} {a b : Vector Byte cap} {n : Nat}
    (h : ∀ k : Fin cap, k.val < n → a[k] = b[k]) : firstBytes a n = firstBytes b n := by
  unfold firstBytes
  apply List.ext_getElem (by simp)
  intro i h1 h2
  have hi : i < n ∧ i < cap := by simpa using h1
  simpa using h ⟨i, hi.2⟩ hi.1

/-! ## Repetition -/

@[simp] theorem iterate_zero {α : Type} (f : α → α) (x : α) : iterate f 0 x = x := rfl

theorem iterate_succ {α : Type} (f : α → α) (n : Nat) (x : α) : iterate f (n + 1) x = iterate f n (f x) := rfl

/-- The last application on the outside. -/
theorem iterate_succ' {α : Type} (f : α → α) (n : Nat) (x : α) : iterate f (n + 1) x = f (iterate f n x) := by
  induction n generalizing x with
  | zero => rfl
  | succ n ih => rw [iterate_succ, ih, iterate_succ]

/-- A sequence that obeys the recurrence is the iteration. -/
theorem iterate_eq_seq {α : Type} (f : α → α) (c : Nat → α) (h : ∀ t, c (t + 1) = f (c t)) (n : Nat) :
    iterate f n (c 0) = c n := by
  induction n with
  | zero => rfl
  | succ n ih => rw [iterate_succ', ih, h]

/-- A property that one application keeps, the iteration keeps. -/
theorem iterate_keeps {α : Type} (f : α → α) (P : α → Prop) (h : ∀ x, P x → P (f x)) (n : Nat) (x : α)
    (hx : P x) : P (iterate f n x) := by
  induction n generalizing x with
  | zero => exact hx
  | succ n ih => exact ih _ (h _ hx)

/-- A sequence that each turn of a counted loop moves on by one is what the loop leaves (41_eks_schedule.md R172:
its `for` loops). -/
theorem foldl_finRange_eq_seq {α : Type} {n : Nat} (f : α → Fin n → α) (y : Nat → α)
    (h : ∀ k : Fin n, f (y k.val) k = y (k.val + 1)) : (List.finRange n).foldl f (y 0) = y n := by
  induction n with
  | zero => rfl
  | succ n ih =>
    rw [List.finRange_succ_last, List.foldl_append, List.foldl_map, ih (fun a k => f a k.castSucc) fun k => h k.castSucc]
    exact h (Fin.last n)

/-! ## Words of the cipher state -/

/-- Two cipher states with the same words are one. -/
theorem CipherState.ext_words {a b : CipherState} (hp : ∀ i : Fin 18, a.p[i] = b.p[i])
    (hs : ∀ (i : Fin 4) (j : Fin 256), (a.s[i])[j] = (b.s[i])[j]) : a = b := by
  have h1 : a.p = b.p := Vector.ext fun i hi => hp ⟨i, hi⟩
  have h2 : a.s = b.s := Vector.ext fun i hi => Vector.ext fun j hj => hs ⟨i, hi⟩ ⟨j, hj⟩
  cases a; cases b; simp_all

@[simp] theorem CipherState.setP_s (c : CipherState) (i : Fin 18) (v : Word) : (c.setP i v).s = c.s := rfl
@[simp] theorem CipherState.setS_p (c : CipherState) (b : Fin 4) (j : Fin 256) (v : Word) :
    (c.setS b j v).p = c.p := rfl

theorem CipherState.getP_setP (c : CipherState) (i j : Fin 18) (v : Word) :
    (c.setP i v).getP j = if i = j then v else c.getP j := by
  unfold setP getP
  simp only [Vector.get_eq_getElem, Vector.getElem_set, Fin.ext_iff]

theorem CipherState.getS_setS (c : CipherState) (b b' : Fin 4) (j j' : Fin 256) (v : Word) :
    (c.setS b j v).getS b' j' = if b = b' ∧ j = j' then v else c.getS b' j' := by
  unfold setS getS
  simp only [Vector.get_eq_getElem, Vector.getElem_set, Fin.ext_iff]
  by_cases hb : b.val = b'.val
  · simp only [hb, if_true, Vector.getElem_set, true_and]
  · simp [hb]

end Sys2Proof.Machine
end

