-- ==== Sys2Proof/Laws/Commands.lean ====
section
/-! SUPPORT. One inversion lemma for each command body: the checks that passed and the instance it leaves
when it ends without an error. -/

namespace Sys2Proof.Machine

theorem bfInit_ok {e e' : Engine} (h : bfInit e = .ok e') : e' = e.withCipher seed true := by
  simpa [bfInit] using h.symm

theorem bfDiscard_ok {e e' : Engine} (h : bfDiscard e = .ok e') : e' = e.discard := by
  simpa [bfDiscard] using h.symm

theorem bfEncrypt_ok {e e' : Engine} (h : bfEncrypt e = .ok e') : e.stateValid = true ∧
    e' = { e with dataL := (e.cipher.encrypt (e.dataL, e.dataR)).1
                  dataR := (e.cipher.encrypt (e.dataL, e.dataR)).2 } := by
  unfold bfEncrypt at h
  split at h
  · cases h
  · injection h with h
    exact ⟨by simp_all, h.symm⟩

theorem eksExpandSk_ok {e e' : Engine} (h : eksExpandSk e = .ok e') : e.keyTooLong = false ∧
    e.stateValid = true ∧ e' = { e with cipher := expandKey (some e.salt.toList) e.pwKey e.cipher } := by
  unfold eksExpandSk at h
  split at h
  · cases h
  · split at h
    · cases h
    · injection h with h
      exact ⟨by simp_all, by simp_all, h.symm⟩

theorem eksExpandK_ok {e e' : Engine} (h : eksExpandK e = .ok e') : e.keyTooLong = false ∧
    e.stateValid = true ∧ e' = { e with cipher := expandKey none e.pwKey e.cipher } := by
  unfold eksExpandK at h
  split at h
  · cases h
  · split at h
    · cases h
    · injection h with h
      exact ⟨by simp_all, by simp_all, h.symm⟩

theorem eksExpandS_ok {e e' : Engine} (h : eksExpandS e = .ok e') :
    e.stateValid = true ∧ e' = { e with cipher := expandKey none e.salt.toList e.cipher } := by
  unfold eksExpandS at h
  split at h
  · cases h
  · injection h with h
    exact ⟨by simp_all, h.symm⟩

/-- The cost checks pass exactly in the range. -/
theorem costError_none {c : Byte} : costError c = none ↔ 4 ≤ c.toNat ∧ c.toNat ≤ 31 := by
  unfold costError
  simp only [Config.maxCost, Config.minCost]
  split
  · simp; omega
  · split
    · simp; omega
    · simp; omega

theorem eksSetup_ok {e e' : Engine} (h : eksSetup e = .ok e') : e.keyTooLong = false ∧
    costError e.cost = none ∧
    e' = { e.withCipher (eksSetupState e.pwKey e.salt.toList e.cost.toNat).1 true with
      costCtr := (eksSetupState e.pwKey e.salt.toList e.cost.toNat).2 } := by
  unfold eksSetup at h
  split at h
  · cases h
  · split at h
    · cases h
    · injection h with h
      exact ⟨by simp_all, ‹_›, h.symm⟩

theorem r64EncodeCmd_ok {e e' : Engine} (h : r64EncodeCmd e = .ok e') :
    e.bytesTooLong = false ∧ e' = e.putStrOut (r64Encode e.bytesText) := by
  unfold r64EncodeCmd at h
  split at h
  · cases h
  · injection h with h
    exact ⟨by simp_all, h.symm⟩

theorem r64DecodeCmd_ok {e e' : Engine} (h : r64DecodeCmd e = .ok e') : e.strInTooLong 64 = false ∧
    ∃ out, r64Decode e.strInText = .ok out ∧ e' = e.putBytes out := by
  unfold r64DecodeCmd at h
  split at h
  · cases h
  · split at h
    · cases h
    · injection h with h
      exact ⟨by simp_all, _, ‹_›, h.symm⟩

theorem xlatToBcrypt_ok {e e' : Engine} (h : xlatToBcrypt e = .ok e') : e.strInTooLong 64 = false ∧
    ∃ out, toBcrypt e.strInText = .ok out ∧ e' = e.putStrOut out := by
  unfold xlatToBcrypt at h
  split at h
  · cases h
  · split at h
    · cases h
    · injection h with h
      exact ⟨by simp_all, _, ‹_›, h.symm⟩

theorem xlatToStd_ok {e e' : Engine} (h : xlatToStd e = .ok e') : e.strInTooLong 64 = false ∧
    ∃ out, toStd e.strInText = .ok out ∧ e' = e.putStrOut out := by
  unfold xlatToStd at h
  split at h
  · cases h
  · split at h
    · cases h
    · injection h with h
      exact ⟨by simp_all, _, ‹_›, h.symm⟩

theorem saltGenFrom_ok {e e' : Engine} (h : saltGenFrom e = .ok e') : costError e.cost = none ∧
    e' = e.putStrOut (saltString (chr 'b') e.cost.toNat e.salt.toList) := by
  unfold saltGenFrom genSalt at h
  cases hc : costError e.cost with
  | some code => simp [hc] at h
  | none => exact ⟨rfl, by simpa [hc] using h.symm⟩

/-- Both forms of SALT_GEN, as one: the salt in place, then the string. -/
theorem saltGen_ok {rng : Bool} {e e' : Engine} (h : saltGen rng e = .ok e') : costError e.cost = none ∧
    (rng = true → Config.hasRng = true) ∧
    e' = (if rng then e.drawSalt else e).putStrOut
      (saltString (chr 'b') e.cost.toNat (if rng then e.drawSalt else e).salt.toList) := by
  cases rng with
  | false =>
    obtain ⟨h1, h2⟩ := saltGenFrom_ok h
    exact ⟨h1, by simp, by simpa using h2⟩
  | true =>
    simp only [saltGen] at h
    split at h
    · cases h
    · split at h
      · cases h
      · obtain ⟨h1, h2⟩ := saltGenFrom_ok h
        exact ⟨h1, by simp_all, by simpa using h2⟩

theorem saltParse_ok {e e' : Engine} (h : saltParse e = .ok e') : e.strInTooLong 60 = false ∧
    ∃ r, parseSalt e.strInText = .ok r ∧
      e' = { e with minor := r.minor, cost := BitVec.ofNat 8 r.cost, salt := r.salt } := by
  unfold saltParse at h
  split at h
  · cases h
  · split at h
    · cases h
    · injection h with h
      exact ⟨by simp_all, _, ‹_›, h.symm⟩

theorem bcDigest_ok {e e' : Engine} (h : bcDigest e = .ok e') :
    e.stateValid = true ∧ e' = { e with digest := padTo 24 (digestOf e.cipher) } := by
  unfold bcDigest at h
  split at h
  · cases h
  · injection h with h
    exact ⟨by simp_all, h.symm⟩

theorem bcHash_ok {e e' : Engine} (h : bcHash e = .ok e') : e.keyTooLong = false ∧
    e.strInTooLong 60 = false ∧ ∃ x, hashString e.pwKey e.strInText = .ok x ∧
      e' = { e.putStrOut x.text with costCtr := x.costCtr }.discard := by
  unfold bcHash at h
  split at h
  · cases h
  · split at h
    · cases h
    · split at h
      · cases h
      · injection h with h
        exact ⟨by simp_all, by simp_all, _, ‹_›, h.symm⟩

theorem bcCheck_ok {e e' : Engine} (h : bcCheck e = .ok e') : e.keyTooLong = false ∧
    e.strInTooLong 60 = false ∧ ∃ x, hashString e.pwKey (e.strInText.take 29) = .ok x ∧
      e' = { e with
        matched := decide (e.strInText.length = 60) && decide (x.text = e.strInText)
        costCtr := x.costCtr }.discard := by
  unfold bcCheck at h
  split at h
  · cases h
  · split at h
    · cases h
    · split at h
      · cases h
      · injection h with h
        exact ⟨by simp_all, by simp_all, _, ‹_›, h.symm⟩

/-- The body of each command, as a function of the instance. -/
def commandBody : Instr → Engine → Except ErrorCode Engine
  | .bfInit => bfInit
  | .bfEncrypt => bfEncrypt
  | .bfDiscard => bfDiscard
  | .eksExpandSk => eksExpandSk
  | .eksExpandK => eksExpandK
  | .eksExpandS => eksExpandS
  | .eksSetup => eksSetup
  | .r64Encode => r64EncodeCmd
  | .r64Decode => r64DecodeCmd
  | .xlatToBcrypt => xlatToBcrypt
  | .xlatToStd => xlatToStd
  | .saltGen rng => saltGen rng
  | .saltParse => saltParse
  | .bcDigest => bcDigest
  | .bcHash => bcHash
  | .bcCheck => bcCheck

/-- Every arm completes its command's body. -/
theorem exec_eq_complete (i : Instr) (s : State) : exec i s = complete s (commandBody i s.eng) := by
  cases i <;> rfl

end Sys2Proof.Machine
end

