-- ==== Sys2Proof/Laws/Codec.lean ====
section
/-! SUPPORT. The alphabets, radix-64 lengths, and what parsing a salt string and composing one do. -/

namespace Sys2Proof.Machine

/-! ## Alphabets -/

theorem bcAlpha_length : bcAlpha.length = 64 := by decide
theorem stdAlpha_length : stdAlpha.length = 64 := by decide

theorem bcAlpha_nodup : bcAlpha.Nodup := by decide +kernel
theorem stdAlpha_nodup : stdAlpha.Nodup := by decide +kernel

/-- A character's value gives the character back, and is an index of the alphabet. -/
theorem valueIn_some {alpha : List Byte} {c : Byte} {v : Nat} (h : valueIn alpha c = some v) :
    v < alpha.length ∧ charOf alpha v = c := by
  unfold valueIn at h
  rw [List.idxOf?, List.findIdx?_eq_some_iff_getElem] at h
  obtain ⟨hv, hc, _⟩ := h
  refine ⟨hv, ?_⟩
  simp only [charOf, List.getD_eq_getElem?_getD, List.getElem?_eq_getElem hv]
  simpa using hc

/-- A character has a value exactly when it is in the alphabet. -/
theorem valueIn_none {alpha : List Byte} {c : Byte} : valueIn alpha c = none ↔ c ∉ alpha := by
  unfold valueIn
  rw [List.idxOf?, List.findIdx?_eq_none_iff]
  simp only [beq_eq_false_iff_ne]
  constructor
  · intro h hc; exact h c hc rfl
  · rintro h x hx rfl; exact h hx

/-- In an alphabet without repeats, the character of a value has that value. -/
theorem valueIn_charOf {alpha : List Byte} (hn : alpha.Nodup) {v : Nat} (hv : v < alpha.length) :
    valueIn alpha (charOf alpha v) = some v := by
  have hm : charOf alpha v ∈ alpha := by
    simp [charOf, List.getD_eq_getElem?_getD, List.getElem?_eq_getElem hv]
  cases hw : valueIn alpha (charOf alpha v) with
  | none => exact absurd hm (valueIn_none.1 hw)
  | some w =>
    obtain ⟨h1, h2⟩ := valueIn_some hw
    simp only [charOf, List.getD_eq_getElem?_getD, List.getElem?_eq_getElem hv,
      List.getElem?_eq_getElem h1, Option.getD_some] at h2
    rw [(List.Nodup.getElem_inj_iff hn).1 h2]

theorem charOf_mem {alpha : List Byte} {v : Nat} (hv : v < alpha.length) : charOf alpha v ∈ alpha := by
  simp [charOf, List.getD_eq_getElem?_getD, List.getElem?_eq_getElem hv]

/-! ## Translation -/

/-- A translation succeeds exactly on strings over the source alphabet. -/
theorem translate_ok_iff {src dst t : List Byte} : (∃ u, translate src dst t = .ok u) ↔ ∀ c ∈ t, c ∈ src := by
  induction t with
  | nil => simp [translate]
  | cons c t ih =>
    simp only [translate, List.mem_cons, forall_eq_or_imp, ← ih]
    cases hv : valueIn src c with
    | none => simp [valueIn_none.1 hv]
    | some v =>
      have : c ∈ src := by
        by_contra hc
        rw [valueIn_none.2 hc] at hv; cases hv
      cases translate src dst t <;> simp [this]

/-- Otherwise it ends with R64_INVALID_CHAR. -/
theorem translate_error {src dst t : List Byte} {code : ErrorCode} (h : translate src dst t = .error code) :
    code = .r64InvalidChar := by
  cases t with
  | nil => cases h
  | cons c t =>
    simp only [translate] at h
    split at h
    · cases h
    · injection h with h; exact h.symm

/-- A translation keeps the length, and maps each character to the one of the same value. -/
theorem translate_ok {src dst t u : List Byte} (h : translate src dst t = .ok u) : u.length = t.length ∧
    ∀ k < t.length, ∃ v, valueIn src (t.getD k 0) = some v ∧ u.getD k 0 = charOf dst v := by
  induction t generalizing u with
  | nil => injection h with h; subst h; simp
  | cons c t ih =>
    simp only [translate] at h
    split at h
    · rename_i v out hv ho
      injection h with h; subst h
      obtain ⟨h1, h2⟩ := ih ho
      refine ⟨by simp [h1], ?_⟩
      intro k hk
      cases k with
      | zero => exact ⟨v, by simpa using hv, by simp⟩
      | succ k => simpa using h2 k (by simpa using hk)
    · cases h

/-! ## Radix-64 -/

theorem bcValues_none {t : List Byte} : bcValues t = none ↔ ∃ c ∈ t, c ∉ bcAlpha := by
  induction t with
  | nil => simp [bcValues]
  | cons c t ih =>
    simp only [bcValues, List.mem_cons, exists_eq_or_imp, ← ih]
    cases hv : valueIn bcAlpha c with
    | none => simp [valueIn_none.1 hv]
    | some v =>
      have hc : ¬ c ∉ bcAlpha := fun hc => by rw [valueIn_none.2 hc] at hv; cases hv
      cases bcValues t <;> simp [hc]

theorem bcValues_some {t : List Byte} {vs : List Nat} (h : bcValues t = some vs) :
    vs.length = t.length ∧ vs.map (charOf bcAlpha) = t ∧ ∀ v ∈ vs, v < 64 := by
  induction t generalizing vs with
  | nil => injection h with h; subst h; simp
  | cons c t ih =>
    simp only [bcValues] at h
    split at h
    · rename_i v ws hv hw
      injection h with h; subst h
      obtain ⟨h1, h2, h3⟩ := ih hw
      obtain ⟨h4, h5⟩ := valueIn_some hv
      refine ⟨by simp [h1], by simp [h2, h5], ?_⟩
      intro x hx
      rcases List.mem_cons.1 hx with rfl | hx
      · simpa [bcAlpha_length] using h4
      · exact h3 x hx
    · cases h

/-- Characters written for values below 64 have those values. -/
theorem bcValues_map {vs : List Nat} (h : ∀ v ∈ vs, v < 64) : bcValues (vs.map (charOf bcAlpha)) = some vs := by
  induction vs with
  | nil => rfl
  | cons v vs ih =>
    have h1 : valueIn bcAlpha (charOf bcAlpha v) = some v :=
      valueIn_charOf bcAlpha_nodup (by rw [bcAlpha_length]; exact h v (by simp))
    simp [bcValues, h1, ih fun w hw => h w (by simp [hw])]

theorem r64Encode_length (b : List Byte) : (r64Encode b).length =
    4 * (b.length / 3) + (if b.length % 3 = 0 then 0 else if b.length % 3 = 1 then 2 else 3) := by
  induction b using r64Encode.induct with
  | case1 => rfl
  | case2 => simp [r64Encode]
  | case3 => simp [r64Encode]
  | case4 b0 b1 b2 rest ih =>
    have h1 : (rest.length + 3) % 3 = rest.length % 3 := by omega
    have h2 : (rest.length + 3) / 3 = rest.length / 3 + 1 := by omega
    simp only [r64Encode, List.length_cons, ih, h1, h2]
    omega

theorem decodeGroups_length (vs : List Nat) : (decodeGroups vs).length =
    3 * (vs.length / 4) + (if vs.length % 4 = 2 then 1 else if vs.length % 4 = 3 then 2 else 0) := by
  induction vs using decodeGroups.induct with
  | case1 => rfl
  | case2 => simp [decodeGroups]
  | case3 => simp [decodeGroups]
  | case4 => simp [decodeGroups]
  | case5 v0 v1 v2 v3 rest ih =>
    have h1 : (rest.length + 4) % 4 = rest.length % 4 := by omega
    have h2 : (rest.length + 4) / 4 = rest.length / 4 + 1 := by omega
    simp only [decodeGroups, List.length_cons, ih, h1, h2]
    omega

/-- All R64Decode can answer. -/
theorem r64Decode_ok {t b : List Byte} (h : r64Decode t = .ok b) :
    t.length % 4 ≠ 1 ∧ ∃ vs, bcValues t = some vs ∧ b = decodeGroups vs := by
  unfold r64Decode at h
  split at h
  · cases h
  · split at h
    · cases h
    · injection h with h
      exact ⟨‹_›, _, ‹_›, h.symm⟩

theorem r64Decode_error {t : List Byte} {code : ErrorCode} (h : r64Decode t = .error code) :
    (t.length % 4 = 1 ∧ code = .r64InvalidLength) ∨
    (t.length % 4 ≠ 1 ∧ (∃ c ∈ t, c ∉ bcAlpha) ∧ code = .r64InvalidChar) := by
  unfold r64Decode at h
  split at h
  · injection h with h; exact .inl ⟨‹_›, h.symm⟩
  · split at h
    · injection h with h; exact .inr ⟨‹_›, bcValues_none.1 ‹_›, h.symm⟩
    · cases h

theorem r64Encode_mem {b : List Byte} : ∀ c ∈ r64Encode b, c ∈ bcAlpha := by
  have hm : ∀ g lo, groupChar g lo ∈ bcAlpha := fun g lo =>
    charOf_mem (by rw [bcAlpha_length]; exact Nat.mod_lt _ (by decide))
  induction b using r64Encode.induct with
  | case1 => simp [r64Encode]
  | case2 => simp [r64Encode, hm]
  | case3 => simp [r64Encode, hm]
  | case4 b0 b1 b2 rest ih => simpa [r64Encode, hm] using ih

/-! ## Salt strings -/

theorem dec2_length (c : Nat) : (dec2 c).length = 2 := rfl

theorem saltString_length {minor : Byte} {cost : Nat} {salt : List Byte} (h : salt.length = 16) :
    (saltString minor cost salt).length = 29 := by
  simp [saltString, dec2_length, r64Encode_length, h]

/-- What a successful parse says: the stages that passed and the three results. -/
theorem parseSalt_ok {s : List Byte} {r : ParsedSalt} (h : parseSalt s = .ok r) :
    structureOk s = true ∧ versionOk s = true ∧ formatOk s = true ∧ 29 ≤ s.length ∧
      ∃ b, r64Decode (saltField s) = .ok b ∧ r = ⟨s.getD 2 0, costField s, padTo 16 b⟩ := by
  unfold parseSalt at h
  split at h
  · cases h
  · split at h
    · cases h
    · split at h
      · cases h
      · split at h
        · cases h
        · split at h
          · cases h
          · injection h with h
            exact ⟨by simp_all, by simp_all, by simp_all, by simp_all, _, ‹_›, h.symm⟩

theorem formatOk_iff {s : List Byte} : formatOk s = true ↔ isMinor (s.getD 2 0) = true ∧
    isDigit (s.getD 4 0) = true ∧ isDigit (s.getD 5 0) = true ∧ 4 ≤ costField s ∧ costField s ≤ 31 := by
  simp [formatOk, and_assoc]

theorem saltField_length {s : List Byte} (h : 29 ≤ s.length) : (saltField s).length = 22 := by
  simp [saltField]; omega

/-- Nothing from index 29 on is read (R224). -/
theorem parseSalt_take {s : List Byte} : parseSalt (s.take 29) = parseSalt s := by
  have hg : ∀ i < 29, (s.take 29).getD i 0 = s.getD i 0 := by
    intro i hi
    simp [List.getD_eq_getElem?_getD, hi]
  have hf : saltField (s.take 29) = saltField s := by
    simp [saltField, List.drop_take, List.take_take]
  have hl : ∀ n ≤ 29, n ≤ (s.take 29).length ↔ n ≤ s.length := by
    intro n hn; simp [List.length_take, hn]
  have h1 : structureOk (s.take 29) = structureOk s := by
    simp only [structureOk, hg 3 (by decide), hg 6 (by decide), hl 7 (by decide)]
  have h2 : versionOk (s.take 29) = versionOk s := by
    simp only [versionOk, hg 0 (by decide), hg 1 (by decide)]
  have hc : costField (s.take 29) = costField s := by
    simp only [costField, hg 4 (by decide), hg 5 (by decide)]
  have h3 : formatOk (s.take 29) = formatOk s := by
    simp only [formatOk, hg 2 (by decide), hg 4 (by decide), hg 5 (by decide), hc]
  have h4 : (s.take 29).length < 29 ↔ s.length < 29 := by simp [List.length_take]
  unfold parseSalt
  simp only [h1, h2, h3, hf, hc, hg 2 (by decide), Config.saltStringLen, h4]

end Sys2Proof.Machine
end

