-- ==== Sys2Proof/Laws/Eks.lean ====
section
/-! SUPPORT. The cost loop and its counter, and which cipher states it makes. -/

namespace Sys2Proof.Machine

/-- The cost loop without its counter. -/
def rekey (pwKey salt : List Byte) (c : CipherState) : CipherState :=
  expandKey none salt (expandKey none pwKey c)

theorem iterate_costStep (pwKey salt : List Byte) (n : Nat) (c : CipherState) (k : Nat) :
    iterate (costStep pwKey salt) n (c, BitVec.ofNat 32 k) =
      (iterate (rekey pwKey salt) n c, BitVec.ofNat 32 (k + n)) := by
  induction n generalizing c k with
  | zero => rfl
  | succ n ih =>
    have h : costStep pwKey salt (c, BitVec.ofNat 32 k) = (rekey pwKey salt c, BitVec.ofNat 32 (k + 1)) := by
      simp [costStep, rekey, BitVec.ofNat_add]
    rw [iterate_succ, h, ih, iterate_succ, show k + 1 + n = k + (n + 1) by omega]

/-- EksSetup: the loop's cipher state, and COST_CTR = 2^cost (41_eks_schedule.md R180). -/
theorem eksSetupState_eq (pwKey salt : List Byte) (cost : Nat) : eksSetupState pwKey salt cost =
    (iterate (rekey pwKey salt) (2 ^ cost) (expandKey (some salt) pwKey seed), BitVec.ofNat 32 (2 ^ cost)) := by
  have h := iterate_costStep pwKey salt (2 ^ cost) (expandKey (some salt) pwKey seed) 0
  rw [Nat.zero_add] at h
  exact h

theorem seedDerived_rekey {pwKey salt : List Byte} (hp : pwKey ≠ []) (hs : salt ≠ []) {c : CipherState}
    (hc : SeedDerived c) : SeedDerived (rekey pwKey salt c) :=
  .expand none salt _ (.expand none pwKey c hc (by simp) hp) (by simp) hs

/-- EksSetup leaves a state derived from the seed (10_state.md R24). -/
theorem seedDerived_eksSetupState {pwKey salt : List Byte} (hp : pwKey ≠ []) (hs : salt.length = 16)
    (cost : Nat) : SeedDerived (eksSetupState pwKey salt cost).1 := by
  rw [eksSetupState_eq]
  have hne : salt ≠ [] := by intro h; simp [h] at hs
  apply iterate_keeps _ _ fun c hc => seedDerived_rekey hp hne hc
  exact .expand (some salt) pwKey _ .seed (by rintro d hd; injection hd with hd; exact hd ▸ hs) hp

theorem Engine.pwKey_ne_nil (e : Engine) : e.pwKey ≠ [] := by simp [Engine.pwKey]

/-- The length of a digest. -/
theorem digestOf_length (c : CipherState) : (digestOf c).length = 24 := by
  simp [digestOf, bytesBE]

/-- All HashString can answer: the parse it rests on, its string and its loop count (43_bcrypt.md R253). -/
theorem hashString_ok {pwKey s : List Byte} {h : HashResult} (hh : hashString pwKey s = .ok h) :
    ∃ r, parseSalt s = .ok r ∧ h.costCtr = BitVec.ofNat 32 (2 ^ r.cost) ∧
      h.text = saltString r.minor r.cost r.salt.toList ++
        r64Encode ((digestOf (eksSetupState pwKey r.salt.toList r.cost).1).take 23) := by
  unfold hashString at hh
  split at hh
  · cases hh
  · rename_i r hr
    injection hh with hh
    subst hh
    exact ⟨r, hr, by simp [eksSetupState_eq], rfl⟩

theorem hashString_length {pwKey s : List Byte} {h : HashResult} (hh : hashString pwKey s = .ok h) :
    h.text.length = 60 := by
  obtain ⟨r, -, -, ht⟩ := hashString_ok hh
  simp [ht, saltString_length, r64Encode_length, digestOf_length]

end Sys2Proof.Machine
end

