-- ==== Sys2Proof/Laws/HostPort.lean ====
section
/-! SUPPORT. What a host access can do to an instance, said once, and the host's names. -/

namespace Sys2Proof.Machine

/-! ## The register map -/

/-- The register map, said once: what holds of every row of 10_state.md R40, with the row's offsets, holds
of what stands at a word offset. -/
theorem targetOf_rows {P : Target → Prop} (off : Nat) (hw : off % 4 = 0) (hl : off < 0x2000)
    (id : off = 0x0000 → P .id)
    (cmd : off = 0x0004 → P .cmd)
    (status : off = 0x0008 → P .status)
    (dataL : off = 0x000C → P .dataL)
    (dataR : off = 0x0010 → P .dataR)
    (cost : off = 0x0014 → P .cost)
    (minor : off = 0x0018 → P .minor)
    (keyLen : off = 0x001C → P .keyLen)
    (strInLen : off = 0x0020 → P .strInLen)
    (strOutLen : off = 0x0024 → P .strOutLen)
    (bytesLen : off = 0x0028 → P .bytesLen)
    (costCtr : off = 0x002C → P .costCtr)
    (keyWord : 0x0040 ≤ off ∧ off ≤ 0x0087 → P (.keyWord ((off - 0x0040) / 4)))
    (saltWord : 0x0090 ≤ off ∧ off ≤ 0x009F → P (.saltWord ((off - 0x0090) / 4)))
    (digestWord : 0x00A0 ≤ off ∧ off ≤ 0x00B7 → P (.digestWord ((off - 0x00A0) / 4)))
    (bytesWord : 0x00C0 ≤ off ∧ off ≤ 0x00EF → P (.bytesWord ((off - 0x00C0) / 4)))
    (strInWord : 0x0100 ≤ off ∧ off ≤ 0x013F → P (.strInWord ((off - 0x0100) / 4)))
    (strOutWord : 0x0140 ≤ off ∧ off ≤ 0x017F → P (.strOutWord ((off - 0x0140) / 4)))
    (pWord : 0x0400 ≤ off ∧ off ≤ 0x0447 → P (.pWord ((off - 0x0400) / 4)))
    (sWord : 0x1000 ≤ off ∧ off ≤ 0x1FFF → P (.sWord ((off - 0x1000) / 0x400) ((off - 0x1000) % 0x400 / 4)))
    (reserved : (0x0030 ≤ off ∧ off ≤ 0x003F) ∨
      (0x0088 ≤ off ∧ off ≤ 0x008F) ∨
      (0x00B8 ≤ off ∧ off ≤ 0x00BF) ∨
      (0x00F0 ≤ off ∧ off ≤ 0x00FF) ∨
      (0x0180 ≤ off ∧ off ≤ 0x03FF) ∨
      (0x0448 ≤ off ∧ off ≤ 0x0FFF) → P .reserved) :
    P (targetOf off) := by
  unfold targetOf
  by_cases c0 : off = 0x0000
  · rw [if_pos c0]; exact id c0
  rw [if_neg c0]
  by_cases c1 : off = 0x0004
  · rw [if_pos c1]; exact cmd c1
  rw [if_neg c1]
  by_cases c2 : off = 0x0008
  · rw [if_pos c2]; exact status c2
  rw [if_neg c2]
  by_cases c3 : off = 0x000C
  · rw [if_pos c3]; exact dataL c3
  rw [if_neg c3]
  by_cases c4 : off = 0x0010
  · rw [if_pos c4]; exact dataR c4
  rw [if_neg c4]
  by_cases c5 : off = 0x0014
  · rw [if_pos c5]; exact cost c5
  rw [if_neg c5]
  by_cases c6 : off = 0x0018
  · rw [if_pos c6]; exact minor c6
  rw [if_neg c6]
  by_cases c7 : off = 0x001C
  · rw [if_pos c7]; exact keyLen c7
  rw [if_neg c7]
  by_cases c8 : off = 0x0020
  · rw [if_pos c8]; exact strInLen c8
  rw [if_neg c8]
  by_cases c9 : off = 0x0024
  · rw [if_pos c9]; exact strOutLen c9
  rw [if_neg c9]
  by_cases c10 : off = 0x0028
  · rw [if_pos c10]; exact bytesLen c10
  rw [if_neg c10]
  by_cases c11 : off = 0x002C
  · rw [if_pos c11]; exact costCtr c11
  rw [if_neg c11]
  by_cases c12 : 0x0040 ≤ off ∧ off ≤ 0x0087
  · rw [if_pos c12]; exact keyWord c12
  rw [if_neg c12]
  by_cases c13 : 0x0090 ≤ off ∧ off ≤ 0x009F
  · rw [if_pos c13]; exact saltWord c13
  rw [if_neg c13]
  by_cases c14 : 0x00A0 ≤ off ∧ off ≤ 0x00B7
  · rw [if_pos c14]; exact digestWord c14
  rw [if_neg c14]
  by_cases c15 : 0x00C0 ≤ off ∧ off ≤ 0x00EF
  · rw [if_pos c15]; exact bytesWord c15
  rw [if_neg c15]
  by_cases c16 : 0x0100 ≤ off ∧ off ≤ 0x013F
  · rw [if_pos c16]; exact strInWord c16
  rw [if_neg c16]
  by_cases c17 : 0x0140 ≤ off ∧ off ≤ 0x017F
  · rw [if_pos c17]; exact strOutWord c17
  rw [if_neg c17]
  by_cases c18 : 0x0400 ≤ off ∧ off ≤ 0x0447
  · rw [if_pos c18]; exact pWord c18
  rw [if_neg c18]
  by_cases c19 : 0x1000 ≤ off ∧ off ≤ 0x1FFF
  · rw [if_pos c19]; exact sWord c19
  rw [if_neg c19]
  exact reserved (by omega)

/-- A word offset. -/
theorem wordOffset_word (addr : Nat) : wordOffset addr % 4 = 0 ∧ wordOffset addr < 0x2000 := by
  unfold wordOffset; omega

/-- STATUS stands at its one offset. -/
theorem targetOf_eq_status {off : Nat} (hw : off % 4 = 0) (hl : off < 0x2000) :
    targetOf off = .status ↔ off = 0x0008 := by
  apply targetOf_rows (P := fun t => t = .status ↔ off = 0x0008) off hw hl
  all_goals intro h; simp; try omega

/-- The reads R43 defines while BUSY = 1 are those of three offsets. -/
theorem targetOf_definedWhileBusy {off : Nat} (hw : off % 4 = 0) (hl : off < 0x2000) :
    (targetOf off).definedWhileBusy = true ↔ off = 0x0000 ∨ off = 0x0004 ∨ off = 0x0008 := by
  apply targetOf_rows (P := fun t => t.definedWhileBusy = true ↔ off = 0x0000 ∨ off = 0x0004 ∨ off = 0x0008) off hw hl
  all_goals intro h; simp [Target.definedWhileBusy]; try omega

/-- The reserved offsets (R45). -/
theorem targetOf_reserved {off : Nat} (hw : off % 4 = 0) (hl : off < 0x2000) :
    targetOf off = .reserved ↔ (0x0030 ≤ off ∧ off ≤ 0x003F) ∨ (0x0088 ≤ off ∧ off ≤ 0x008F) ∨
      (0x00B8 ≤ off ∧ off ≤ 0x00BF) ∨ (0x00F0 ≤ off ∧ off ≤ 0x00FF) ∨ (0x0180 ≤ off ∧ off ≤ 0x03FF) ∨
      (0x0448 ≤ off ∧ off ≤ 0x0FFF) := by
  apply targetOf_rows (P := fun t => t = .reserved ↔ _) off hw hl
  all_goals intro h; simp; try omega

/-! ## The port -/

/-- A MemRead moves nothing but the model's own count of free reads (20_memory.md R76). -/
theorem memRead_engine (e : Engine) (addr : Nat) :
    (e.memRead addr).2 = e ∨ (e.pend ≠ none ∧ (e.memRead addr).2 = { e with busyReads := e.busyReads + 1 }) := by
  unfold Engine.memRead
  simp only
  split
  · rename_i h
    simp only [Bool.and_eq_true] at h
    exact .inr ⟨Engine.busy_eq_true.1 h.1, rfl⟩
  · exact .inl rfl

/-- The parts of an instance that no store of an operand touches. -/
def sameReport (e e' : Engine) : Prop :=
  e'.pend = e.pend ∧ e'.done = e.done ∧ e'.matched = e.matched ∧ e'.err = e.err ∧ e'.lastOp = e.lastOp ∧
    e'.costCtr = e.costCtr ∧ e'.stateValid = e.stateValid ∧ e'.cipher = e.cipher ∧ e'.minor = e.minor ∧
    e'.strOut = e.strOut ∧ e'.strOutLen = e.strOutLen ∧ e'.digest = e.digest

theorem sameReport_refl (e : Engine) : sameReport e e := by simp [sameReport]

/-- All a MemWrite can do: take effect on STATUS, be lost while BUSY = 1, issue a command, or store an
operand (10_state.md R36, R42, R46). -/
theorem memWrite_cases (e : Engine) (addr : Nat) (v : Word) :
    e.memWrite addr v = e.writeStatus v ∨
    (e.pend ≠ none ∧ e.memWrite addr v = { e with werr := true }) ∨
    (e.pend = none ∧ e.memWrite addr v = e.issue v) ∨
    (e.pend = none ∧ sameReport e (e.memWrite addr v)) := by
  unfold Engine.memWrite
  simp only
  split
  · exact .inl rfl
  · split
    · exact .inr (.inl ⟨Engine.busy_eq_true.1 ‹_›, rfl⟩)
    · have hp : e.pend = none := Engine.busy_eq_false.1 (by simpa using ‹¬ e.busy = true›)
      cases targetOf (wordOffset addr)
      case cmd => exact .inr (.inr (.inl ⟨hp, rfl⟩))
      all_goals exact .inr (.inr (.inr ⟨hp, by simp [Engine.store, sameReport]⟩))

/-! ## Host names -/

/-- The smallest name of a set of bindings, bounded below. -/
def namesAbove (x : Nat) : HostEnv → Prop
  | [] => True
  | (y, _) :: _ => x < y

theorem envSorted_cons {x : Nat} {n : Int} {env : HostEnv} :
    envSorted ((x, n) :: env) = true ↔ namesAbove x env ∧ envSorted env = true := by
  cases env with
  | nil => simp [envSorted, namesAbove]
  | cons p t => obtain ⟨y, m⟩ := p; simp [envSorted, namesAbove]

theorem namesAbove_bindName {y x : Nat} {n : Int} {env : HostEnv} (h : namesAbove y env) (hx : y < x) :
    namesAbove y (bindName x n env) := by
  cases env with
  | nil => exact hx
  | cons p t =>
    obtain ⟨z, m⟩ := p
    unfold bindName
    split
    · exact hx
    · split
      · exact hx
      · exact h

/-- Binding a name keeps the canonical form. -/
theorem envSorted_bindName {x : Nat} {n : Int} {env : HostEnv} (h : envSorted env = true) :
    envSorted (bindName x n env) = true := by
  induction env with
  | nil => rfl
  | cons p t ih =>
    obtain ⟨y, m⟩ := p
    obtain ⟨h1, h2⟩ := envSorted_cons.1 h
    unfold bindName
    split
    · exact envSorted_cons.2 ⟨‹_›, h⟩
    · split
      · subst_vars; exact envSorted_cons.2 ⟨h1, h2⟩
      · exact envSorted_cons.2 ⟨namesAbove_bindName h1 (by omega), ih h2⟩

/-- A bound name reads back, and no other name changes. -/
theorem lookupName_bindName (x y : Nat) (n : Int) (env : HostEnv) :
    lookupName (bindName x n env) y = if y = x then some n else lookupName env y := by
  induction env with
  | nil => simp [bindName, lookupName]
  | cons p t ih =>
    obtain ⟨z, m⟩ := p
    unfold bindName
    split
    · simp only [lookupName]
    · split
      · subst_vars; simp only [lookupName]; split <;> simp_all
      · simp only [lookupName, ih]
        split
        · split <;> simp_all
        · rfl

/-! ## Lines -/

theorem withValue_next {h : HostAgent} {v : HostValue} {go : Int → LineResult} {x : HostAgent × Engine}
    (hx : h.withValue v go = .next x) : ∃ n, go n = .next x := by
  unfold HostAgent.withValue at hx
  split at hx
  · exact ⟨_, hx⟩
  · split at hx
    · exact ⟨_, hx⟩
    · cases hx

theorem withAddress_next {h : HostAgent} {r : Reg} {k : HostValue} {width : Nat} {go : Nat → LineResult}
    {x : HostAgent × Engine} (hx : h.withAddress r k width go = .next x) : ∃ a, go a = .next x := by
  unfold HostAgent.withAddress at hx
  split at hx
  · cases hx
  · obtain ⟨n, hn⟩ := withValue_next hx
    simp only at hn
    split at hn
    · exact ⟨_, hn⟩
    · cases hn

theorem jump_next {h : HostAgent} {l : Nat} {e : Engine} {x : HostAgent × Engine} (hx : h.jump l e = .next x) :
    x.2 = e ∧ x.1.env = h.env ∧ x.1.prog = h.prog := by
  unfold HostAgent.jump at hx
  split at hx
  · injection hx with hx; subst hx; exact ⟨rfl, rfl, rfl⟩
  · cases hx

/-- All a host line can do to the instance: nothing, one MemWrite or one MemRead (20_memory.md R79); the
host keeps its program and the canonical form of its names. -/
theorem runLine_next {h : HostAgent} {e : Engine} {line : HostLine} {x : HostAgent × Engine}
    (hx : h.runLine e line = .next x) :
    x.1.prog = h.prog ∧ (envSorted h.env = true → envSorted x.1.env = true) ∧
      (x.2 = e ∨ (∃ a v, x.2 = e.memWrite a v) ∨ ∃ a, x.2 = (e.memRead a).2) := by
  cases line with
  | label l =>
    injection hx with hx; subst hx
    exact ⟨rfl, id, .inl rfl⟩
  | wr r k width v =>
    simp only [HostAgent.runLine] at hx
    obtain ⟨a, ha⟩ := withAddress_next hx
    obtain ⟨n, hn⟩ := withValue_next ha
    injection hn with hn; subst hn
    exact ⟨rfl, id, .inr (.inl ⟨_, _, rfl⟩)⟩
  | rd r k width y =>
    simp only [HostAgent.runLine] at hx
    obtain ⟨a, ha⟩ := withAddress_next hx
    injection ha with ha; subst ha
    exact ⟨rfl, envSorted_bindName, .inr (.inr ⟨_, rfl⟩)⟩
  | bnz y mask l =>
    simp only [HostAgent.runLine] at hx
    obtain ⟨n, hn⟩ := withValue_next hx
    split at hn
    · obtain ⟨h1, h2, h3⟩ := jump_next hn
      exact ⟨h3, by rw [h2]; exact id, .inl h1⟩
    · injection hn with hn; subst hn
      exact ⟨rfl, id, .inl rfl⟩
  | dec y =>
    simp only [HostAgent.runLine] at hx
    obtain ⟨n, hn⟩ := withValue_next hx
    injection hn with hn; subst hn
    exact ⟨rfl, envSorted_bindName, .inl rfl⟩
  | set y n =>
    injection hx with hx; subst hx
    exact ⟨rfl, envSorted_bindName, .inl rfl⟩
  | bnez y l =>
    simp only [HostAgent.runLine] at hx
    obtain ⟨n, hn⟩ := withValue_next hx
    split at hn
    · obtain ⟨h1, h2, h3⟩ := jump_next hn
      exact ⟨h3, by rw [h2]; exact id, .inl h1⟩
    · injection hn with hn; subst hn
      exact ⟨rfl, id, .inl rfl⟩

/-- All a host's turn can do. -/
theorem hostTurn_next {k : Nat} {s t : State} (ht : hostTurn k s = .next t) :
    t = s ∨ ∃ h line x, s.hosts[k]? = some h ∧ h.current = some line ∧ h.runLine s.eng line = .next x ∧
      t = { s with eng := x.2, hosts := s.hosts.set k x.1 } := by
  unfold hostTurn at ht
  split at ht
  · injection ht with ht; exact .inl ht.symm
  · rename_i h hh
    split at ht
    · injection ht with ht; exact .inl ht.symm
    · rename_i line hl
      split at ht
      · rename_i x hx
        injection ht with ht
        exact .inr ⟨h, line, x, hh, hl, hx, ht.symm⟩
      · cases ht
      · cases ht

end Sys2Proof.Machine
end

