-- ==== Sys2Proof/Laws/PerInstr.lean ====
section
/-! SUPPORT. What the word of each command looks like, one lemma per constructor: the family
ReservedBitsZero (30_encoding.md R100, R102). -/

namespace Sys2Proof.Laws.ReservedBitsZero

/-- The command's word has RES = 0 and its opcode in OP, and bit 8 set for SALT_GEN drawing its salt alone. -/
def Statement (i : Instr) : Prop :=
  resField (encode i) = 0#23 ∧ opField (encode i) = i.opcode ∧ (rngField (encode i) = true ↔ i = .saltGen true)

theorem bfInit : Statement .bfInit := by unfold Statement; decide
theorem bfEncrypt : Statement .bfEncrypt := by unfold Statement; decide
theorem bfDiscard : Statement .bfDiscard := by unfold Statement; decide
theorem eksExpandSk : Statement .eksExpandSk := by unfold Statement; decide
theorem eksExpandK : Statement .eksExpandK := by unfold Statement; decide
theorem eksExpandS : Statement .eksExpandS := by unfold Statement; decide
theorem eksSetup : Statement .eksSetup := by unfold Statement; decide
theorem r64Encode : Statement .r64Encode := by unfold Statement; decide
theorem r64Decode : Statement .r64Decode := by unfold Statement; decide
theorem xlatToBcrypt : Statement .xlatToBcrypt := by unfold Statement; decide
theorem xlatToStd : Statement .xlatToStd := by unfold Statement; decide
theorem saltGen (rng : Bool) : Statement (.saltGen rng) := by cases rng <;> (unfold Statement; decide)
theorem saltParse : Statement .saltParse := by unfold Statement; decide
theorem bcDigest : Statement .bcDigest := by unfold Statement; decide
theorem bcHash : Statement .bcHash := by unfold Statement; decide
theorem bcCheck : Statement .bcCheck := by unfold Statement; decide

end Sys2Proof.Laws.ReservedBitsZero
end

