-- ==== Sys2Proof/Laws/Step.lean ====
section
/-! SUPPORT. What a step can do, said once. -/

namespace Sys2Proof.Machine

/-- All the engine's turn can do: nothing without a pending command; else the command's body, or the error
of an illegal word, and the end of the command. -/
theorem engineTurn_next {s t : State} (h : engineTurn s = .next t) :
    (s.eng.pend = none ∧ t = s) ∨
    (∃ w i e, s.eng.pend = some w ∧ decode w = .ok i ∧ commandBody i s.eng = .ok e ∧
      t = { s with eng := e.finish .none }) ∨
    (∃ w code, s.eng.pend = some w ∧ t = { s with eng := s.eng.finish code } ∧
      ((∃ r, decode w = .error r ∧ code = .illegalCommand) ∨
       ∃ i, decode w = .ok i ∧ commandBody i s.eng = .error code)) := by
  unfold engineTurn at h
  split at h
  · injection h with h; exact .inl ⟨‹_›, h.symm⟩
  · rename_i w hw
    split at h
    · rename_i i hi
      rw [exec_eq_complete] at h
      rcases complete_cases h with ⟨e, he, ht⟩ | ⟨code, he, ht⟩
      · exact .inr (.inl ⟨w, i, e, hw, hi, he, ht⟩)
      · exact .inr (.inr ⟨w, code, hw, ht, .inr ⟨i, hi, he⟩⟩)
    · rename_i r hr
      injection h with h
      exact .inr (.inr ⟨w, .illegalCommand, hw, h.symm, .inl ⟨r, hr, rfl⟩⟩)

/-- The engine's turn never stops the machine. -/
theorem engineTurn_runs (s : State) : ∃ t, engineTurn s = .next t := by
  unfold engineTurn
  split
  · exact ⟨_, rfl⟩
  · split
    · rw [exec_eq_complete]; exact complete_next _ _
    · exact ⟨_, rfl⟩

/-- All a step can do, by whose turn it is. -/
theorem step_next {s t : State} (h : step s = .next t) :
    ((popTurn s).1 = .engine ∧ engineTurn (popTurn s).2 = .next t) ∨
    (∃ k, (popTurn s).1 = .host k ∧ hostTurn k (popTurn s).2 = .next t) ∨
    ((popTurn s).1 = .reset ∧ t = resetTurn (popTurn s).2) := by
  unfold step at h
  split at h
  · exact .inl ⟨‹_›, h⟩
  · exact .inr (.inl ⟨_, ‹_›, h⟩)
  · injection h with h; exact .inr (.inr ⟨‹_›, h.symm⟩)

end Sys2Proof.Machine
end

