-- ==== Sys2Proof/Tests/Slice0.lean ====
section
/-! SUPPORT. Tests. Expected values are those of 30_encoding.md R102 and R110 to R112, 40_blowfish.md R150 and
95_test_vectors.md L1 to L3, named at each group; then a witness for the hypotheses of each statement. -/

open Sys2Proof Sys2Proof.Machine

/-! ## Helpers -/

namespace Sys2Proof.Tests

/-- The character codes of a string. -/
def text (s : String) : List Byte := s.toList.map chr

/-- An instance alone, no host and no choice of the scheduler. -/
def st (e : Engine) : State := ⟨e, [], []⟩

/-- Right after BF_INIT: P and S are the seed. -/
def seeded : Engine := Engine.reset.withCipher seed true

/-- `LOADSTR`, `LOADKEY`, `LOADBYTES`, `LOADSALT` on an instance. -/
def withStr (s : List Byte) (e : Engine) : Engine := { e with strIn := padTo 64 s, strInLen := BitVec.ofNat 8 s.length }
def withKey (s : List Byte) (e : Engine) : Engine := { e with key := padTo 72 s, keyLen := BitVec.ofNat 8 s.length }
def withBytes (s : List Byte) (e : Engine) : Engine := { e with bytes := padTo 48 s, bytesLen := BitVec.ofNat 8 s.length }
def withSalt (s : List Byte) (e : Engine) : Engine := { e with salt := padTo 16 s }

/-- The bytes 00 to 0F, and the salt of L1.10. -/
def salt0F : List Byte := [0, 1, 2, 3, 4, 5, 6, 7, 8, 9, 10, 11, 12, 13, 14, 15]
def saltTest : List Byte :=
  [0xBD, 0xC5, 0xAF, 0xFE, 0x83, 0xD2, 0x3C, 0x14, 0x06, 0x2E, 0xC2, 0x56, 0x4B, 0x2F, 0x63, 0x1B]

/-- The state one step on; the state itself where the machine stops. -/
def stepped (s : State) : State :=
  match step s with
  | .next t => t
  | .fault _ => s
  | .refused _ => s

/-- The instance that the word `w`, issued on `e`, leaves after one step. -/
def issueAndStep (w : Nat) (e : Engine) : Engine := (stepped ((st e).withFetchWord 32 w)).eng

/-- STATUS after that step, and STR_OUT[0..STR_OUT_LEN). -/
def statusAfter (w : Nat) (e : Engine) : Word := (issueAndStep w e).statusWord
def strOutAfter (w : Nat) (e : Engine) : List Byte :=
  firstBytes (issueAndStep w e).strOut (issueAndStep w e).strOutLen.toNat

end Sys2Proof.Tests

open Sys2Proof.Tests

/-! ## WellFormed: each check refuses an ill-formed term -/

theorem test_wellFormed_refuses_rng_without_port : Instr.wellFormedOn false (.saltGen true) = false := by decide
theorem test_wellFormed_takes_rng_with_port : Instr.wellFormedOn true (.saltGen true) = true := by decide
theorem test_wellFormed_takes_every_other_command :
    ∀ i ∈ [Instr.bfInit, .bfEncrypt, .bfDiscard, .eksExpandSk, .eksExpandK, .eksExpandS, .eksSetup, .r64Encode,
      .r64Decode, .xlatToBcrypt, .xlatToStd, .saltGen false, .saltParse, .bcDigest, .bcHash, .bcCheck],
      i.wellFormedOn false = true := by decide
theorem test_program_refuses_byte_write :
    hostProgramWellFormed [.wr .cost (.lit 0) 1 (.lit 4)] = false := by decide
theorem test_program_refuses_halfword_read :
    hostProgramWellFormed [.rd .status (.lit 0) 2 0] = false := by decide
theorem test_program_refuses_missing_label_bnz : hostProgramWellFormed [.label 1, .bnz 0 1 2] = false := by decide
theorem test_program_refuses_missing_label_bnez : hostProgramWellFormed [.label 1, .bnez 0 2] = false := by decide
theorem test_program_takes_wait : hostProgramWellFormed (run .bfInit 1 0) = true := by decide

/-! ## Decode: each command's word, written out from the table of R102; R103, R104 for the rest -/

theorem test_decode_bfInit : decode 0b0000_0001#32 = .ok .bfInit := by decide
theorem test_decode_bfEncrypt : decode 0b0000_0010#32 = .ok .bfEncrypt := by decide
theorem test_decode_bfDiscard : decode 0b0000_0011#32 = .ok .bfDiscard := by decide
theorem test_decode_eksExpandSk : decode 0b0001_0000#32 = .ok .eksExpandSk := by decide
theorem test_decode_eksExpandK : decode 0b0001_0001#32 = .ok .eksExpandK := by decide
theorem test_decode_eksExpandS : decode 0b0001_0010#32 = .ok .eksExpandS := by decide
theorem test_decode_eksSetup : decode 0b0001_0011#32 = .ok .eksSetup := by decide
theorem test_decode_r64Encode : decode 0b0010_0000#32 = .ok .r64Encode := by decide
theorem test_decode_r64Decode : decode 0b0010_0001#32 = .ok .r64Decode := by decide
theorem test_decode_xlatToBcrypt : decode 0b0010_0010#32 = .ok .xlatToBcrypt := by decide
theorem test_decode_xlatToStd : decode 0b0010_0011#32 = .ok .xlatToStd := by decide
theorem test_decode_saltGen : decode 0b0_0010_0100#32 = .ok (.saltGen false) := by decide
theorem test_decode_saltGen_rng : decode 0b1_0010_0100#32 = .ok (.saltGen true) := by decide
theorem test_decode_saltParse : decode 0b0010_0101#32 = .ok .saltParse := by decide
theorem test_decode_bcDigest : decode 0b0011_0000#32 = .ok .bcDigest := by decide
theorem test_decode_bcHash : decode 0b0011_0001#32 = .ok .bcHash := by decide
theorem test_decode_bcCheck : decode 0b0011_0010#32 = .ok .bcCheck := by decide
theorem test_decode_rejects : decode 0#32 = .error .unknownOpcode ∧ decode 0x04#32 = .error .unknownOpcode ∧
    decode 0x101#32 = .error .rngNotAllowed ∧ decode 0x201#32 = .error .reservedBits ∧
    decode 0x80000001#32 = .error .reservedBits ∧ decode 0x324#32 = .error .reservedBits := by decide

/-! ## Tables: R110, R111, R150, R250 -/

theorem test_bcAlpha : bcAlpha = text "./ABCDEFGHIJKLMNOPQRSTUVWXYZabcdefghijklmnopqrstuvwxyz0123456789" := by
  decide +kernel
theorem test_stdAlpha : stdAlpha = text "ABCDEFGHIJKLMNOPQRSTUVWXYZabcdefghijklmnopqrstuvwxyz0123456789+/" := by
  decide +kernel
theorem test_ctext : ctext = text "OrpheanBeholderScryDoubt" ∧ ctextWord 0 = 0x4F727068 ∧ ctextWord 1 = 0x65616E42 ∧
    ctextWord 2 = 0x65686F6C ∧ ctextWord 3 = 0x64657253 ∧ ctextWord 4 = 0x63727944 ∧ ctextWord 5 = 0x6F756274 := by
  decide

/-! ## Blowfish: L2.1 -/

theorem test_f_on_seed : seed.f 0x01020304 = 0x3CEDFF8C ∧ seed.f 0xFFFFFFFF = 0x452C2867 := by decide +kernel
theorem test_round_on_seed : seed.round 0 (0, 0) = (0xDB2F9C4E, 0x243F6A88) := by decide +kernel
theorem test_bfEncrypt_on_seed :
    let e := issueAndStep 0x02 { seeded with dataL := 0x01234567, dataR := 0x89ABCDEF }
    (e.dataL, e.dataR) = (0x738E078D, 0x4C8703A6) ∧ e.statusWord = 0x00020006 := by decide +kernel
theorem test_bfEncrypt_from_reset : statusAfter 0x02 Engine.reset = 0x00020902 := by decide
theorem test_bfInit : statusAfter 0x01 Engine.reset = 0x00010006 ∧
    ((issueAndStep 0x01 Engine.reset).memRead 0x0444).1 = 0x8979FB1B ∧
    ((issueAndStep 0x01 Engine.reset).memRead 0x1FFC).1 = 0x3AC372E6 := by decide +kernel
theorem test_bfDiscard : statusAfter 0x03 seeded = 0x00030002 ∧
    ((issueAndStep 0x03 seeded).memRead 0x0400).1 = 0 := by decide +kernel

/-! ## Eks schedule: L2.3, L2.4. P[17] comes after 9 chained encryptions and 18 mixed salt words. -/

theorem test_streamWord : (streamWord (text "ABCDE") 0).1 = 0x41424344 ∧
    (streamWord (text "ABCDE") (streamWord (text "ABCDE") 0).2).1 = 0x45414243 ∧
    (streamWord (text "a" ++ [0]) 0).1 = 0x61006100 := by decide
theorem test_expandKey_sk_P17 :
    ((List.finRange 9).foldl (Running.stepP (some salt0F))
      ⟨keyIntoP (withKey (text "abc") Engine.reset).pwKey seed, 0, 0, 0⟩).c.getP 17 = 0x7AB842A9 := by
  decide +kernel
theorem test_eksExpandSk_invalid_state : statusAfter 0x10 Engine.reset = 0x00100902 := by decide
theorem test_eksExpandK_length_before_state :
    statusAfter 0x11 { Engine.reset with keyLen := 73 } = 0x00110502 := by decide
theorem test_eksExpandS_invalid_state : statusAfter 0x12 Engine.reset = 0x00120902 := by decide
theorem test_eksSetup_cost_3 : statusAfter 0x13 { Engine.reset with cost := 3 } = 0x00130602 := by decide
theorem test_eksSetup_checks_in_order : statusAfter 0x13 { Engine.reset with cost := 32 } = 0x00130402 ∧
    statusAfter 0x13 { Engine.reset with cost := 32, keyLen := 73 } = 0x00130502 := by decide

/-! ## Radix-64 and alphabets: L2.6, L2.7 -/

theorem test_r64Encode : strOutAfter 0x20 (withBytes [1, 2, 3, 4] Engine.reset) = text ".OGB/." ∧
    strOutAfter 0x20 (withBytes salt0F Engine.reset) = text "..CA.uOD/eaGAOmJB.yMBu" := by decide +kernel
theorem test_r64Encode_limit : strOutAfter 0x20 (withBytes (List.replicate 48 0xFF) Engine.reset) =
      List.replicate 64 (chr '9') ∧
    statusAfter 0x20 { Engine.reset with bytesLen := 49 } = 0x00200502 := by decide +kernel
theorem test_r64Decode_ignores_unused_bits : (issueAndStep 0x21 (withStr (text "taUt9mNQN/OEJqHUQw7hEv") Engine.reset)).bytes =
    padTo 48 saltTest := by decide +kernel
theorem test_r64Decode_checks_in_order : statusAfter 0x21 (withStr (text "ab_c.") Engine.reset) = 0x00210802 ∧
    statusAfter 0x21 (withStr (text "ab==") Engine.reset) = 0x00210702 := by decide +kernel
theorem test_xlatToBcrypt : strOutAfter 0x22 (withStr (text "AZaz09+/") Engine.reset) = text ".XYxy789" ∧
    statusAfter 0x22 (withStr (text "+/==") Engine.reset) = 0x00220702 := by decide +kernel
theorem test_xlatToStd : strOutAfter 0x23 (withStr (text "./AZaz09") Engine.reset) = text "ABCbc12/" ∧
    statusAfter 0x23 (withStr (text "+/==") Engine.reset) = 0x00230702 := by decide +kernel

/-! ## Salt strings: L2.8, L2.10 -/

theorem test_saltGen : strOutAfter 0x24 (withSalt saltTest { Engine.reset with cost := 6 }) =
    text "$2b$06$taUt9mNQN/OEJqHUQw7hEu" := by decide +kernel
theorem test_saltGen_cost : statusAfter 0x24 { Engine.reset with cost := 32 } = 0x00240402 ∧
    statusAfter 0x24 { Engine.reset with cost := 3 } = 0x00240602 := by decide
theorem test_saltParse :
    let e := issueAndStep 0x25 (withStr (text "$2a$06$taUt9mNQN/OEJqHUQw7hEuHmqdNbKkdT1LC54VcV4TLM6ctI6XI4C") Engine.reset)
    e.minor = 0x61 ∧ e.cost = 6 ∧ e.salt = padTo 16 saltTest ∧ e.statusWord = 0x00250002 := by decide +kernel
theorem test_saltParse_stages : statusAfter 0x25 (withStr (text "$2b10$salt_string_that_is_22_chars") Engine.reset) = 0x00250102 ∧
    statusAfter 0x25 (withStr (text "#2b$10$......................") Engine.reset) = 0x00250202 ∧
    statusAfter 0x25 (withStr (text "$2b$32$......................") Engine.reset) = 0x00250302 ∧
    statusAfter 0x25 (withStr (text "$2b$10$short") Engine.reset) = 0x00250102 ∧
    statusAfter 0x25 (withStr (text "$2b$10$salt_string_that_is_22") Engine.reset) = 0x00250702 ∧
    statusAfter 0x25 { Engine.reset with strInLen := 61 } = 0x00250502 := by decide +kernel

/-! ## Digest and hash commands: L1.6 to L1.8, L2.5, L2.9, L2.11 -/

theorem test_bcDigest_invalid_state : statusAfter 0x30 Engine.reset = 0x00300902 := by decide
theorem test_bcHash_errors : statusAfter 0x31 (withStr (text "*1b$10$salt_string_that_is_22") Engine.reset) = 0x00310202 ∧
    statusAfter 0x31 (withStr (text "$2b$xx$salt_stri") Engine.reset) = 0x00310302 := by decide +kernel
theorem test_bcHash_from_reset : statusAfter 0x31 Engine.reset = 0x00310102 ∧
    statusAfter 0x31 { Engine.reset with keyLen := 73 } = 0x00310502 := by decide
theorem test_bcCheck_errors : statusAfter 0x32 (withStr (text "$2a$06$taUt9mNQN/OEJ") Engine.reset) = 0x00320102 ∧
    statusAfter 0x32 (withStr (text "$2c$10$salt_string_that_is_22") Engine.reset) = 0x00320302 := by decide +kernel

/-! ## The host port: L2.12 and program 5 -/

theorem test_illegal_words : statusAfter 0 Engine.reset = 0x00000A02 ∧ statusAfter 0x101 Engine.reset = 0x00010A02 ∧
    statusAfter 0x80000001 Engine.reset = 0x00010A02 ∧ statusAfter 4 Engine.reset = 0x00040A02 := by decide
theorem test_reset_reads : (Engine.reset.memRead 0x0000).1 = 0x42435259 ∧ (Engine.reset.memRead 0x0008).1 = 0 ∧
    (Engine.reset.memRead 0x0030).1 = 0 ∧ (Engine.reset.memRead 0x0448).1 = 0 := by decide
theorem test_key_word_is_big_endian : (Engine.reset.memWrite 0x0040 0x74657374).key = padTo 72 (text "test") ∧
    (Engine.reset.memWrite 0x001C 0x00000148).keyLen = 72 ∧ (Engine.reset.memWrite 0x0018 0x62).minor = 0 := by decide
/-- Busy write, then the completion step, then clearing WERR. -/
theorem test_busy_write :
    let e := ((seeded.memWrite 0x0004 0x02).memWrite 0x000C 0x12345678)
    let t := (stepped (st e)).eng
    e.statusWord = 0x00020015 ∧ e.dataL = 0 ∧ t.statusWord = 0x00020016 ∧ t.dataL = 0x706D9FCC ∧
      (t.memWrite 0x0008 0x10).statusWord = 0x00020006 := by decide +kernel
/-- A host program's access of another width is refused by name; a WR line stores; an unbound name faults. -/
theorem test_host_width :
    step ⟨Engine.reset, [⟨[.wr .cost (.lit 0) 2 (.lit 4)], 0, []⟩], []⟩ = .refused (.accessWidth 2) := rfl
theorem test_host_outside_window :
    step ⟨Engine.reset, [⟨[.wr (.raw 0x2000) (.lit 0) 4 (.lit 4)], 0, []⟩], []⟩ = .refused (.outsideWindow 0x2000) := rfl
theorem test_host_line :
    step ⟨Engine.reset, [⟨[setCost 10], 0, []⟩], []⟩ =
      .next ⟨{ Engine.reset with cost := 10 }, [⟨[setCost 10], 1, []⟩], []⟩ := rfl
theorem test_host_unbound_name :
    step ⟨Engine.reset, [⟨[.dec 7], 0, []⟩], []⟩ = .fault (.hostNameUnbound 7) := rfl
/-- The model's choice of log 14: a label that stands twice is its first occurrence. -/
theorem test_host_repeated_label :
    step ⟨Engine.reset, [⟨[.label 1, .label 1, .bnez 7 1], 2, [(7, 2)]⟩], []⟩ =
      .next ⟨Engine.reset, [⟨[.label 1, .label 1, .bnez 7 1], 0, [(7, 2)]⟩], []⟩ := rfl
theorem test_host_unknown_label :
    step ⟨Engine.reset, [⟨[.bnez 7 1], 0, [(7, 2)]⟩], []⟩ = .fault (.hostLabelUnknown 1) := rfl

/-! ## Witnesses: concrete states and operands that meet the hypotheses of each statement together, one for
each clause where the clauses have hypotheses of their own -/

namespace Sys2Proof.Tests

/-- A pending command word on the seed. -/
def pending (w : Word) : State := st (seeded.issue w)

/-- The full lengths: KEY_LEN 72, STR_IN_LEN 60 with a hash string, BYTES_LEN 48, on the seed. -/
def hashText : List Byte := text "$2a$06$taUt9mNQN/OEJqHUQw7hEuHmqdNbKkdT1LC54VcV4TLM6ctI6XI4C"
def full (cost : Byte) : Engine :=
  withStr hashText (withKey (List.replicate 72 0x61) (withBytes (List.replicate 48 0xFF) { seeded with cost := cost }))

/-- The values of 16 rounds from a block. -/
def roundsFrom (c : CipherState) (lr : Word × Word) : Nat → Word × Word
  | 0 => lr
  | n + 1 => c.round (Fin.ofNat 16 n) (roundsFrom c lr n)

/-- A command whose body succeeds ends without an error. -/
theorem ends_ok {i : Instr} {e : Engine} (h : ∃ e', commandBody i e = .ok e') :
    ∃ t, exec i (st e) = .next t ∧ t.eng.err = .none := by
  obtain ⟨e', h⟩ := h
  rw [exec_eq_complete, st, h]; exact ⟨_, rfl, rfl⟩

theorem full_ok (cost : Byte) : (full cost).keyTooLong = false ∧ (full cost).strInTooLong 60 = false ∧
    (full cost).strInText = hashText := by
  refine ⟨?_, ?_, ?_⟩
  · decide +revert +kernel
  · decide +revert +kernel
  · decide +revert +kernel

theorem parse_hashText : parseSalt hashText = .ok ⟨0x61, 6, padTo 16 saltTest⟩ := by decide +kernel

/-! ### Encoding, issue and completion -/

theorem witness_LegalWordsRunOthersEndWithCodeTen :
    (pending 0x31).eng.pend = some 0x31#32 ∧ LegalWord Config.hasRng 0x31#32 ∧
    (pending 0x201).eng.pend = some 0x201#32 ∧ ¬ LegalWord Config.hasRng 0x201#32 ∧
    (pending 0x80000001).eng.pend = some 0x80000001#32 ∧ ¬ LegalWord Config.hasRng 0x80000001#32 ∧
    ¬ LegalWord Config.hasRng 0x101#32 :=
  ⟨rfl, ⟨by decide, by decide, .inl (by decide)⟩, rfl, fun h => absurd h.2.1 (by decide), rfl,
    fun h => absurd h.2.1 (by decide), fun h => h.2.2.elim (by decide) fun h => absurd h.1 (by decide)⟩

theorem witness_StepRunsPendingCommand :
    (pending 0x02).eng.pend = some 0x02#32 ∧ decode 0x02#32 = .ok .bfEncrypt ∧ (pending 0x02).turns = [] ∧
    ({ pending 0x02 with turns := [.engine, .reset] } : State).eng.pend = some 0x02#32 ∧
    ({ pending 0x02 with turns := [.engine, .reset] } : State).turns = .engine :: [.reset] :=
  ⟨rfl, rfl, rfl, rfl, rfl⟩

theorem witness_EveryCommandCompletes : (st seeded).eng.pend = none ∧ (pending 0x02).eng.pend ≠ none ∧
    (pending 0x201).eng.pend ≠ none := by decide

theorem witness_CommandWriteIssues : seeded.pend = none ∧ wordOffset 0x0004 = 0x0004 ∧ wordOffset 0x0007 = 0x0004 ∧
    wordOffset 0x2004 = 0x0004 := ⟨rfl, rfl, rfl, rfl⟩

theorem witness_WritesWhileBusySetWerr : (pending 0x02).eng.pend ≠ none ∧ wordOffset 0x0004 ≠ 0x0008 ∧
    wordOffset 0x0007 ≠ 0x0008 ∧ wordOffset 0x000C ≠ 0x0008 ∧ wordOffset 0x1FFC ≠ 0x0008 := by decide

theorem witness_StatusWriteClearsWerr : wordOffset 0x0008 = 0x0008 ∧ wordOffset 0x000B = 0x0008 := ⟨rfl, rfl⟩

theorem witness_ReadsWhileBusyAreDraws : (pending 0x02).eng.pend ≠ none ∧ wordOffset 0x0000 = 0x0000 ∧
    wordOffset 0x0004 = 0x0004 ∧ wordOffset 0x0008 = 0x0008 ∧
    wordOffset 0x000C ∉ [0x0000, 0x0004, 0x0008] ∧ wordOffset 0x1FFC ∉ [0x0000, 0x0004, 0x0008] := by decide

theorem witness_IdleReadsFollowTheRegisterMap : seeded.pend = none := rfl

theorem witness_IdleWritesFollowTheRegisterMap : seeded.pend = none ∧
    ∀ off ∈ [0x0000, 0x0018, 0x0024, 0x002C, 0x00A0, 0x00B4, 0x0140, 0x017C, 0x0400, 0x0444, 0x1000, 0x1FFC],
      off ∈ [0x0000, 0x0018, 0x0024, 0x002C] ∨ (0x00A0 ≤ off ∧ off ≤ 0x00B4) ∨ (0x0140 ≤ off ∧ off ≤ 0x017C) ∨
        (0x0400 ≤ off ∧ off ≤ 0x0444) ∨ (0x1000 ≤ off ∧ off ≤ 0x1FFC) := by decide

theorem witness_ReservedOffsetsReadZero : seeded.pend = none ∧
    ∀ off ∈ [0x0030, 0x003F, 0x0088, 0x008F, 0x00B8, 0x00BF, 0x00F0, 0x00FF, 0x0180, 0x03FF, 0x0448, 0x0FFF],
      (0x0030 ≤ off ∧ off ≤ 0x003F) ∨ (0x0088 ≤ off ∧ off ≤ 0x008F) ∨ (0x00B8 ≤ off ∧ off ≤ 0x00BF) ∨
      (0x00F0 ≤ off ∧ off ≤ 0x00FF) ∨ (0x0180 ≤ off ∧ off ≤ 0x03FF) ∨ (0x0448 ≤ off ∧ off ≤ 0x0FFF) := by decide

theorem witness_AddressBitsOutsideTheOffsetAreIgnored :
    0x40002000 % 0x2000 = 0 ∧ 0x1FFC < 0x2000 ∧ 0x1FFC % 4 = 0 ∧ 3 < 4 := by decide

theorem witness_OtherWidthsAreRefused : 1 ≠ 4 ∧ 2 ≠ 4 ∧ 8 ≠ 4 ∧ 0 ≠ 4 := by decide

/-- A host's write of DATA_L that meets BUSY = 1. -/
def busyHost : State := ⟨seeded.issue 0x02, [⟨[wr .dataL 0x12345678], 0, []⟩], [.host 0]⟩

theorem witness_PendingCommandCannotBeCancelled : busyHost.eng.pend = some 0x02#32 ∧ (∃ t, step busyHost = .next t) ∧
    (popTurn busyHost).1 ≠ .engine ∧ (popTurn busyHost).1 ≠ .reset := ⟨rfl, ⟨_, rfl⟩, by decide, by decide⟩

theorem witness_ReportStaysUntilNextIssue : (st seeded).eng.pend = none ∧ ∃ t, step (st seeded) = .next t := ⟨rfl, _, rfl⟩

/-- No choice left, and a host's choice that meets BUSY = 1. -/
theorem witness_PendingCommandCompletesInTime : (pending 0x02).eng.pend ≠ none ∧ .reset ∉ (pending 0x02).turns ∧
    busyHost.eng.pend ≠ none ∧ .reset ∉ busyHost.turns := by decide

theorem witness_ResetClearsTheInstance :
    ({ pending 0x02 with turns := [.reset] } : State).turns = .reset :: [] := rfl

/-! ### Errors and frames -/

theorem witness_ErrorsChangeOnlyTheReport : (∃ t, exec .bfEncrypt State.reset = .next t ∧ t.eng.err ≠ .none) ∧
    (pending 0x201).eng.pend ≠ none ∧ ∃ t, engineTurn (pending 0x201) = .next t ∧ t.eng.err ≠ .none :=
  ⟨⟨_, rfl, by decide⟩, by decide, _, rfl, by decide⟩

theorem witness_CommandsWriteOnlyTheirResults : (∃ t, exec .bfEncrypt (st seeded) = .next t) ∧
    Instr.bfEncrypt ∉ [Instr.bfInit, .bfDiscard, .eksExpandSk, .eksExpandK, .eksExpandS, .eksSetup, .bcHash, .bcCheck] ∧
    Instr.bfEncrypt ∉ [Instr.bfInit, .bfDiscard, .eksSetup, .bcHash, .bcCheck] ∧ Instr.bcDigest ≠ .bfEncrypt ∧
    Instr.bfEncrypt ≠ .saltParse ∧ Instr.bfEncrypt ∉ [Instr.saltParse, .saltGen true] ∧ Instr.bfEncrypt ≠ .saltGen true ∧
    Instr.bfEncrypt ≠ .r64Decode ∧
    Instr.bfEncrypt ∉ [Instr.r64Encode, .xlatToBcrypt, .xlatToStd, .saltGen false, .saltGen true, .bcHash] ∧
    Instr.bfEncrypt ≠ .bcDigest ∧ Instr.bfEncrypt ∉ [Instr.eksSetup, .bcHash, .bcCheck] ∧ Instr.bfEncrypt ≠ .bcCheck :=
  ⟨⟨_, rfl⟩, by decide⟩

/-- Buffers that differ from those of reset in every byte, all past a length of 0. -/
theorem witness_BytesBeyondALengthHaveNoEffect :
    (∀ k : Fin 72, k.val < (st seeded).eng.keyLen.toNat → (padTo 72 (List.replicate 72 0x61))[k] = (st seeded).eng.key[k]) ∧
    (∀ k : Fin 64, k.val < (st seeded).eng.strInLen.toNat → (padTo 64 hashText)[k] = (st seeded).eng.strIn[k]) ∧
    (∀ k : Fin 48, k.val < (st seeded).eng.bytesLen.toNat → (padTo 48 saltTest)[k] = (st seeded).eng.bytes[k]) ∧
    (∃ t, exec .eksExpandK (st seeded) = .next t) ∧ Instr.eksExpandK ≠ .r64Decode :=
  ⟨fun k h => absurd h (by decide +revert), fun k h => absurd h (by decide +revert), fun k h => absurd h (by decide +revert),
    by rw [exec_eq_complete]; exact complete_next _ _, by decide⟩

/-! ### Blowfish and the key schedule -/

theorem witness_BfEncryptRunsSixteenRounds (v : Bool) :
    let s := st { seeded with stateValid := v, dataL := 0x01234567 }
    let x := roundsFrom s.eng.cipher (s.eng.dataL, s.eng.dataR)
    (x 0).1 = s.eng.dataL ∧ (x 0).2 = s.eng.dataR ∧
    (∀ i : Fin 16, ∃ y : Word, y = (x i.val).1 ^^^ s.eng.cipher.p[i.val] ∧
      (x (i.val + 1)).2 = y ∧
      (x (i.val + 1)).1 = (x i.val).2 ^^^
        (((s.eng.cipher.s[0][(y.extractLsb' 24 8).toNat]'(by omega) +
           s.eng.cipher.s[1][(y.extractLsb' 16 8).toNat]'(by omega)) ^^^
           s.eng.cipher.s[2][(y.extractLsb' 8 8).toNat]'(by omega)) +
           s.eng.cipher.s[3][(y.extractLsb' 0 8).toNat]'(by omega))) := by
  intro s x
  refine ⟨rfl, rfl, fun i => ⟨_, rfl, ?_, ?_⟩⟩
  · have : Fin.ofNat 16 i.val = i := by simp
    show (CipherState.round _ (Fin.ofNat 16 i.val) _).2 = _
    rw [this]; rfl
  · have : Fin.ofNat 16 i.val = i := by simp
    show (CipherState.round _ (Fin.ofNat 16 i.val) _).1 = _
    rw [this]; rfl

theorem witness_KeyIsMixedCyclicallyIntoP : (full 6).pwKey ≠ [] ∧ ([0] : List Byte) ≠ [] := by
  simp [Engine.pwKey]

/-- A salt's words in turn, four of them; zero with the empty salt. -/
def saltWords (salt : Option (Vector Byte 16)) (n : Nat) : Word :=
  match salt with
  | none => 0
  | some d => d[4 * (n % 4)] ++ d[4 * (n % 4) + 1] ++ d[4 * (n % 4) + 2] ++ d[4 * (n % 4) + 3]

/-- The words that step `k` of ExpandKey writes, set in P or in a box. -/
def writeBlock (k : Nat) (lr : Word × Word) (c : CipherState) : CipherState :=
  if k < 9 then
    ⟨Vector.ofFn fun i : Fin 18 => if i.val = 2 * k then lr.1 else if i.val = 2 * k + 1 then lr.2 else c.p[i], c.s⟩
  else
    ⟨c.p, Vector.ofFn fun b : Fin 4 => Vector.ofFn fun j : Fin 256 =>
      if b.val = (k - 9) / 128 ∧ j.val = 2 * ((k - 9) % 128) then lr.1
      else if b.val = (k - 9) / 128 ∧ j.val = 2 * ((k - 9) % 128) + 1 then lr.2 else (c.s[b])[j]⟩

/-- The steps of ExpandKey from a state with the key in P: the cipher state and the running block. -/
def steps (w : Nat → Word) (c : CipherState) : Nat → CipherState × (Word × Word)
  | 0 => (c, (0, 0))
  | k + 1 =>
    let y := steps w c k
    let lr := y.1.encrypt (y.2.1 ^^^ w (2 * k), y.2.2 ^^^ w (2 * k + 1))
    (writeBlock k lr y.1, lr)

/-- The seed with the key "abc" and a zero byte XORed into P. -/
def keyedSeed : CipherState :=
  ⟨Vector.ofFn fun i : Fin 18 => seed.p[i] ^^^ 0x61626300#32, seed.s⟩

theorem witness_ExpandKeyChainsTheRunningBlock : ∀ salt ∈ [none, some (padTo 16 salt0F)],
    let key := text "abc" ++ [0]
    let x := fun k => (steps (saltWords salt) keyedSeed k).1
    let l := fun k => (steps (saltWords salt) keyedSeed k).2.1
    let r := fun k => (steps (saltWords salt) keyedSeed k).2.2
    key ≠ [] ∧
    (∀ i : Fin 18, (x 0).p[i] = seed.p[i] ^^^
      (key.getD ((4 * i.val) % key.length) 0 ++ key.getD ((4 * i.val + 1) % key.length) 0 ++
        key.getD ((4 * i.val + 2) % key.length) 0 ++ key.getD ((4 * i.val + 3) % key.length) 0)) ∧
    (x 0).s = seed.s ∧ l 0 = 0#32 ∧ r 0 = 0#32 ∧
    (salt = none → ∀ n, saltWords salt n = 0#32) ∧
    (∀ d, salt = some d → ∀ n, saltWords salt n = d[4 * (n % 4)] ++ d[4 * (n % 4) + 1] ++ d[4 * (n % 4) + 2] ++
      d[4 * (n % 4) + 3]) ∧
    (∀ k < 521, (l (k + 1), r (k + 1)) =
      (x k).encrypt (l k ^^^ saltWords salt (2 * k), r k ^^^ saltWords salt (2 * k + 1))) ∧
    (∀ k < 9, (x (k + 1)).s = (x k).s ∧ ∀ i : Fin 18, (x (k + 1)).p[i] =
      if i.val = 2 * k then l (k + 1) else if i.val = 2 * k + 1 then r (k + 1) else (x k).p[i]) ∧
    ∀ (b : Fin 4) (m : Fin 128) (k : Nat), k = 9 + 128 * b.val + m.val →
      (x (k + 1)).p = (x k).p ∧ ∀ (b' : Fin 4) (j : Fin 256), ((x (k + 1)).s[b'])[j] =
        if b' = b ∧ j.val = 2 * m.val then l (k + 1)
        else if b' = b ∧ j.val = 2 * m.val + 1 then r (k + 1) else ((x k).s[b'])[j] := by
  intro salt _ key x l r
  refine ⟨by simp [key], ?_, rfl, rfl, rfl, ?_, ?_, fun _ _ => rfl, fun k hk => ?_, fun b m k hk => ?_⟩
  · have h : ∀ i : Fin 18, key.getD ((4 * i.val) % key.length) 0 ++ key.getD ((4 * i.val + 1) % key.length) 0 ++
        key.getD ((4 * i.val + 2) % key.length) 0 ++ key.getD ((4 * i.val + 3) % key.length) 0 = 0x61626300#32 := by
      decide
    intro i
    rw [h i]
    simp [x, steps, keyedSeed]
  · rintro rfl n; rfl
  · rintro d rfl n; rfl
  · simp only [x, l, r, steps, writeBlock, hk, if_true]
    exact ⟨trivial, fun i => by simp⟩
  · subst hk
    have h1 : (9 + 128 * b.val + m.val - 9) / 128 = b.val := by omega
    have h2 : (9 + 128 * b.val + m.val - 9) % 128 = m.val := by omega
    simp only [x, l, r, steps, writeBlock, if_neg (show ¬ 9 + 128 * b.val + m.val < 9 by omega), h1, h2]
    exact ⟨trivial, fun b' j => by simp [Fin.ext_iff]⟩

theorem witness_ZeroSaltIsEmptySalt : ∀ i : Fin 16, (st seeded).eng.salt[i] = 0#8 := by decide

/-- "" and a single zero byte (95_test_vectors.md L1.2). -/
theorem witness_EqualKeyStreamsGiveEqualSchedules : ([0] : List Byte) ≠ [] ∧ ([0, 0] : List Byte) ≠ [] ∧
    ∀ i < 72, ([0] : List Byte).getD (i % 1) 0 = ([0, 0] : List Byte).getD (i % 2) 0 := by decide

theorem witness_ExpandCommandsExpandTheCurrentState :
    (st (full 6)).eng.stateValid = true ∧ (st (full 6)).eng.keyLen.toNat ≤ 72 := by decide +kernel

theorem witness_EksSetupRunsTheCostLoop : ∀ cost ∈ [4#8, 31#8], ∃ c : Nat → CipherState,
    (st (full cost)).eng.keyLen.toNat ≤ 72 ∧ 4 ≤ (st (full cost)).eng.cost.toNat ∧ (st (full cost)).eng.cost.toNat ≤ 31 ∧
    c 0 = expandKey (some (full cost).salt.toList)
      ((full cost).key.toList.take (full cost).keyLen.toNat ++ [0x00#8]) ⟨pInit, sInit⟩ ∧
    ∀ t, c (t + 1) = expandKey none (full cost).salt.toList
      (expandKey none ((full cost).key.toList.take (full cost).keyLen.toNat ++ [0x00#8]) (c t)) := by
  intro cost h
  refine ⟨fun n => iterate (rekey ((full cost).key.toList.take (full cost).keyLen.toNat ++ [0x00#8])
    (full cost).salt.toList) n (expandKey (some (full cost).salt.toList)
      ((full cost).key.toList.take (full cost).keyLen.toNat ++ [0x00#8]) ⟨pInit, sInit⟩),
    ?_, ?_, ?_, rfl, fun t => iterate_succ' _ _ _⟩
  all_goals simp only [List.mem_cons, List.not_mem_nil, or_false] at h; rcases h with rfl | rfl <;> decide +kernel

theorem witness_SetupEqualsTheLowLevelCommands : ∃ t, exec .eksSetup (st (full 4)) = .next t ∧ t.eng.err = .none := by
  have h : costError (full 4).cost = none := by decide
  apply ends_ok
  simp only [commandBody, eksSetup, (full_ok 4).1, h, Bool.false_eq_true, if_false]
  exact ⟨_, rfl⟩

/-! ### Radix-64 and alphabets -/

/-- A canonical text, and one that is not. -/
theorem witness_RadixRoundTrips : r64Decode (text "taUt9mNQN/OEJqHUQw7hEu") = .ok saltTest ∧
    r64Decode (text "taUt9mNQN/OEJqHUQw7hEv") = .ok saltTest ∧ (text "taUt9mNQN/OEJqHUQw7hEv").length = 22 ∧
    ∀ c ∈ text "taUt9mNQN/OEJqHUQw7hEv", c ∈ bcAlpha := by decide +kernel

theorem witness_RadixLengths : r64Decode (text "9999") = .ok [0xFF, 0xFF, 0xFF] ∧ r64Decode (text "9u") = .ok [0xFF] ∧
    r64Decode (text "999") = .ok [0xFF, 0xFF] ∧ r64Decode [] = .ok [] ∧ (text ".....").length % 4 = 1 ∧
    saltTest.length = 16 ∧ (List.replicate 23 0xFF : List Byte).length = 23 := by decide +kernel

theorem witness_TranslationsAreInverse : (∀ c ∈ text "AZaz09+/", c ∈ stdAlpha) ∧ (∀ c ∈ text "./AZaz09", c ∈ bcAlpha) ∧
    (∃ c ∈ text "+/==", c ∉ stdAlpha) ∧ ∃ c ∈ text "+/==", c ∉ bcAlpha := by decide +kernel

/-- All 64 characters of the source alphabet, in order. -/
theorem witness_TranslateCommandsMapIndexByIndex :
    (withStr stdAlpha seeded).strInLen.toNat ≤ 64 ∧ (withStr bcAlpha seeded).strInLen.toNat ≤ 64 ∧
    (∀ k : Fin 64, k.val < (withStr stdAlpha seeded).strInLen.toNat → k.val < 64) ∧
    (∀ k : Fin 64, (withStr stdAlpha seeded).strIn[k] = stdAlpha.getD k.val 0) ∧
    ∀ k : Fin 64, (withStr bcAlpha seeded).strIn[k] = bcAlpha.getD k.val 0 := by decide +kernel

/-- Last groups of one, two and three bytes, and the last group of a full buffer. -/
theorem witness_EncodeCommandFillsStrOut : (st (full 6)).eng.bytesLen.toNat ≤ 48 ∧ (st seeded).eng.bytesLen.toNat ≤ 48 ∧
    ([0xFF] : List Byte).length = 3 * 0 + 1 ∧ ([0xFF, 0xFF] : List Byte).length = 3 * 0 + 2 ∧
    3 * 15 + 2 < (full 6).bytesText.length ∧ (full 6).bytesText.length = 3 * 16 ∧
    0xFFFFFF = ((full 6).bytesText.getD (3 * 15) 0).toNat * 2 ^ 16 +
      ((full 6).bytesText.getD (3 * 15 + 1) 0).toNat * 2 ^ 8 + ((full 6).bytesText.getD (3 * 15 + 2) 0).toNat := by
  decide +kernel

/-- The values of `9u`, a last group of two characters, then of three and of four. -/
theorem witness_DecodeCommandFillsBytes : (withStr bcAlpha seeded).strInLen.toNat ≤ 64 ∧
    (withStr bcAlpha seeded).strInLen.toNat % 4 ≠ 1 ∧
    (∀ c ∈ (withStr bcAlpha seeded).strIn.toList.take (withStr bcAlpha seeded).strInLen.toNat, c ∈ bcAlpha) ∧
    ∀ t ∈ [[63, 48], [63, 63, 60], [63, 63, 63, 63]],
      (∃ b, r64Decode (t.map (charOf bcAlpha)) = .ok b) ∧
      (∀ k < (t.map (charOf bcAlpha)).length,
        t.getD k 0 < 64 ∧ (t.map (charOf bcAlpha)).getD k 0 = bcAlpha.getD (t.getD k 0) 0) ∧
      ∀ k, (t.map (charOf bcAlpha)).length ≤ k → t.getD k 0 = 0 := by
  refine ⟨by decide +kernel, by decide +kernel, by decide +kernel, ?_⟩
  intro t h
  have ht : (r64Decode (t.map (charOf bcAlpha))).isOk = true ∧ ∀ k < (t.map (charOf bcAlpha)).length,
      t.getD k 0 < 64 ∧ (t.map (charOf bcAlpha)).getD k 0 = bcAlpha.getD (t.getD k 0) 0 := by
    simp only [List.mem_cons, List.not_mem_nil, or_false] at h
    rcases h with rfl | rfl | rfl <;> decide +kernel
  refine ⟨?_, ht.2, fun k hk => ?_⟩
  · cases hd : r64Decode (t.map (charOf bcAlpha)) with
    | ok b => exact ⟨b, rfl⟩
    | error c => rw [hd] at ht; exact absurd ht.1 (by simp [Except.isOk, Except.toBool])
  · rw [List.getD_eq_getElem?_getD, List.getElem?_eq_none (by simpa using hk)]; rfl

/-! ### Salt strings -/

theorem witness_SaltStringsParseBack : ∀ m ∈ [0x61#8, 0x62#8, 0x78#8, 0x79#8], ∀ cost ∈ [4, 31],
    m ∈ [0x61#8, 0x62#8, 0x78#8, 0x79#8] ∧ 4 ≤ cost ∧ cost ≤ 31 := by decide

theorem witness_SaltParseWritesTheParsedSalt :
    let e := withStr hashText seeded
    e.strInLen.toNat ≤ 60 ∧
    e.strIn.toList.take e.strInLen.toNat = [0x24#8, 0x32#8, 0x61#8, 0x24#8, 0x30#8, 0x36#8, 0x24#8] ++
      text "taUt9mNQN/OEJqHUQw7hEu" ++ text "HmqdNbKkdT1LC54VcV4TLM6ctI6XI4C" ∧
    (0x61#8 : Byte) ∈ [0x61#8, 0x62#8, 0x78#8, 0x79#8] ∧
    (0x30 ≤ (0x30#8 : Byte).toNat ∧ (0x30#8 : Byte).toNat ≤ 0x39) ∧ (0x30 ≤ (0x36#8 : Byte).toNat ∧ (0x36#8 : Byte).toNat ≤ 0x39) ∧
    4 ≤ 10 * ((0x30#8 : Byte).toNat - 0x30) + ((0x36#8 : Byte).toNat - 0x30) ∧
    10 * ((0x30#8 : Byte).toNat - 0x30) + ((0x36#8 : Byte).toNat - 0x30) ≤ 31 ∧
    (text "taUt9mNQN/OEJqHUQw7hEu").length = 22 ∧ ∀ c ∈ text "taUt9mNQN/OEJqHUQw7hEu", c ∈ bcAlpha := by
  decide +kernel

theorem witness_SaltGenWritesASaltString : ∀ cost ∈ [4#8, 31#8], 4 ≤ (st { seeded with cost := cost }).eng.cost.toNat ∧
    (st { seeded with cost := cost }).eng.cost.toNat ≤ 31 := by decide

/-! ### Digest and hash strings -/

theorem witness_DigestEncryptsThePlaintext : ∃ x : Fin 3 → Nat → Word × Word, (st seeded).eng.stateValid = true ∧
    x 0 0 = (0x4F727068#32, 0x65616E42#32) ∧ x 1 0 = (0x65686F6C#32, 0x64657253#32) ∧
    x 2 0 = (0x63727944#32, 0x6F756274#32) ∧ ∀ k n, x k (n + 1) = (st seeded).eng.cipher.encrypt (x k n) :=
  ⟨fun k n => iterate (st seeded).eng.cipher.encrypt n
      (if k = 0 then (0x4F727068, 0x65616E42) else if k = 1 then (0x65686F6C, 0x64657253) else (0x63727944, 0x6F756274)),
    rfl, rfl, rfl, rfl, fun _ _ => iterate_succ' _ _ _⟩

theorem witness_HashWritesTheHashString : (st (full 6)).eng.keyLen.toNat ≤ 72 ∧ (st (full 6)).eng.strInLen.toNat ≤ 60 ∧
    parseSalt ((st (full 6)).eng.strIn.toList.take (st (full 6)).eng.strInLen.toNat) = .ok ⟨0x61, 6, padTo 16 saltTest⟩ := by
  decide +kernel

theorem witness_CheckComparesTheWholeString : (st (full 6)).eng.keyLen.toNat ≤ 72 ∧
    (st (full 6)).eng.strInLen.toNat ≤ 60 ∧ (st (full 6)).eng.strIn.toList.take (st (full 6)).eng.strInLen.toNat = hashText ∧
    parseSalt hashText = .ok ⟨0x61, 6, padTo 16 saltTest⟩ ∧ hashText.length = 60 ∧
    parseSalt (hashText.take 29) = .ok ⟨0x61, 6, padTo 16 saltTest⟩ := by decide +kernel

/-- BC_CHECK on a 60-character hash, on its 29 salt characters alone, and BC_HASH on those, end without an error. -/
theorem witness_CheckDelegatesToHash : (st (full 6)).eng.strInLen.toNat ≤ 60 ∧
    (∃ t, exec .bcCheck (st (full 6)) = .next t ∧ t.eng.err = .none) ∧
    ∃ u, exec .bcHash { st (full 6) with eng := { (st (full 6)).eng with
      strInLen := BitVec.ofNat 8 (min (st (full 6)).eng.strInLen.toNat 29) } } = .next u ∧ u.eng.err = .none := by
  refine ⟨by decide +kernel, ?_, ?_⟩
  · apply ends_ok
    simp only [commandBody, bcCheck, (full_ok 6).1, (full_ok 6).2.1, (full_ok 6).2.2, Config.hashStringLen,
      Config.saltStringLen, hashString, parseSalt_take, parse_hashText, Bool.false_eq_true, if_false]
    exact ⟨_, rfl⟩
  · apply ends_ok
    have h1 : ({ full 6 with strInLen := BitVec.ofNat 8 (min (full 6).strInLen.toNat 29) } : Engine).keyTooLong = false := by
      decide +kernel
    have h2 : ({ full 6 with strInLen := BitVec.ofNat 8 (min (full 6).strInLen.toNat 29) } : Engine).strInTooLong 60 = false := by
      decide +kernel
    have h3 : ({ full 6 with strInLen := BitVec.ofNat 8 (min (full 6).strInLen.toNat 29) } : Engine).strInText = hashText.take 29 := by
      decide +kernel
    simp only [commandBody, bcHash, st, h1, h2, h3, Config.hashStringLen, hashString, parseSalt_take, parse_hashText,
      Bool.false_eq_true, if_false]
    exact ⟨_, rfl⟩

theorem witness_HashThenCheckMatches : ∃ t, exec .bcHash (st (full 6)) = .next t ∧ t.eng.err = .none := by
  apply ends_ok
  simp only [commandBody, bcHash, (full_ok 6).1, (full_ok 6).2.1, (full_ok 6).2.2, Config.hashStringLen, hashString,
    parse_hashText, Bool.false_eq_true, if_false]
  exact ⟨_, rfl⟩

theorem witness_MinorVersionAffectsOnlyItself : (0x61#8 : Byte) ∈ [0x61#8, 0x62#8, 0x78#8, 0x79#8] ∧
    (0x79#8 : Byte) ∈ [0x61#8, 0x62#8, 0x78#8, 0x79#8] ∧ hashText.getD 2 0 = 0x61#8 ∧
    ∃ h, hashString (full 6).pwKey hashText = .ok h := by
  refine ⟨by decide, by decide, by decide, ?_⟩
  simp only [hashString, parse_hashText]
  exact ⟨_, rfl⟩

/-! ### Invariants, platform and host programs -/

theorem seeded_inv : seeded.Inv := by
  constructor
  all_goals first | (simp [seeded, Engine.reset]; done) | skip
  intro i _
  have : seeded.strOut.toList = List.replicate 64 0#8 := by decide
  simp only [byteAt, this, List.getD_eq_getElem?_getD, List.getElem?_replicate]
  split <;> rfl

theorem witness_StepKeepsSeedDerived :
    ((st seeded).eng.stateValid = true → SeedDerived (st seeded).eng.cipher) ∧ ∃ t, step (st seeded) = .next t :=
  ⟨fun _ => .seed, _, rfl⟩

theorem witness_StepKeepsInvariant :
    State.Inv ⟨seeded, [⟨[setCost 10], 0, [(7, 2)]⟩], []⟩ ∧
    ∃ t, step ⟨seeded, [⟨[setCost 10], 0, [(7, 2)]⟩], []⟩ = .next t :=
  ⟨⟨seeded_inv, by simp [envSorted]⟩, _, rfl⟩

/-- Two instances on two neighbouring windows. -/
def twoSlots : Platform := [⟨0x4000, st seeded⟩, ⟨0x6000, st { Engine.reset with drawStream := 1 }⟩]

theorem witness_InstancesAreIndependent : (1 : Nat) ≠ 0 ∧
    ∃ q r, twoSlots.stepAt 1 = .next q ∧ q.stepAt 0 = .next r := ⟨by decide, _, _, rfl, rfl⟩

theorem witness_PlatformWriteReachesOneInstance : twoSlots.wf = true ∧ twoSlots[0]? = some ⟨0x4000, st seeded⟩ ∧
    0x1FFF < 0x2000 ∧ (1 : Nat) ≠ 0 := ⟨by decide, rfl, by decide, by decide⟩

theorem witness_WaitLoopsWhileBusy :
    (⟨run .bfInit 1 0, 2, []⟩ : HostAgent).prog.idxOf? (.label 1) = some 1 := by decide

theorem witness_LoadKeyLoadsThePassword : ∀ b ∈ [List.replicate 72 0x61#8, []], b.length ≤ 72 ∧
    (⟨seeded, [⟨loadKey b, 0, []⟩], []⟩ : State).eng.pend = none ∧
    (⟨seeded, [⟨loadKey b, 0, []⟩], []⟩ : State).hosts = [⟨loadKey b, 0, []⟩] ∧
    (⟨seeded, [⟨loadKey b, 0, []⟩], []⟩ : State).turns = [] := by
  intro b h
  refine ⟨?_, rfl, rfl, rfl⟩
  simp only [List.mem_cons, List.not_mem_nil, or_false] at h
  rcases h with rfl | rfl <;> decide

end Sys2Proof.Tests
end

section
/-! PROOF. The frame of every command (30_encoding.md R106) and the completion step (10_state.md R44). -/

namespace Sys2Proof.Machine

/-- The fields no command writes. -/
def OperandsKept (e e' : Engine) : Prop :=
  e'.key = e.key ∧ e'.keyLen = e.keyLen ∧ e'.strIn = e.strIn ∧ e'.strInLen = e.strInLen ∧ e'.lastOp = e.lastOp ∧
    e'.werr = e.werr ∧ e'.drawStream = e.drawStream ∧ e'.busyReads = e.busyReads

/-- The results each command may write (30_encoding.md R106): every other one is as before. -/
def ResultsKept (i : Instr) (e e' : Engine) : Prop :=
  (i ∉ [.bfInit, .bfDiscard, .eksExpandSk, .eksExpandK, .eksExpandS, .eksSetup, .bcHash, .bcCheck] →
    e'.cipher = e.cipher) ∧
  (i ∉ [.bfInit, .bfDiscard, .eksSetup, .bcHash, .bcCheck] → e'.stateValid = e.stateValid) ∧
  (i ≠ .bfEncrypt → e'.dataL = e.dataL ∧ e'.dataR = e.dataR) ∧
  (i ≠ .saltParse → e'.minor = e.minor ∧ e'.cost = e.cost) ∧
  (i ∉ [.saltParse, .saltGen true] → e'.salt = e.salt) ∧
  (i ≠ .saltGen true → e'.rngDraws = e.rngDraws) ∧
  (i ≠ .r64Decode → e'.bytes = e.bytes ∧ e'.bytesLen = e.bytesLen) ∧
  (i ∉ [.r64Encode, .xlatToBcrypt, .xlatToStd, .saltGen false, .saltGen true, .bcHash] →
    e'.strOut = e.strOut ∧ e'.strOutLen = e.strOutLen) ∧
  (i ≠ .bcDigest → e'.digest = e.digest) ∧
  (i ∉ [.eksSetup, .bcHash, .bcCheck] → e'.costCtr = e.costCtr) ∧
  (i ≠ .bcCheck → e'.matched = e.matched)

/-- The frame of a command: what its body leaves of the engine's state. -/
def CommandFrame (i : Instr) (e e' : Engine) : Prop := OperandsKept e e' ∧ ResultsKept i e e'

/-- Every command's body keeps its frame. -/
theorem commandBody_frame {i : Instr} {e e' : Engine} (h : commandBody i e = .ok e') : CommandFrame i e e' := by
  unfold CommandFrame OperandsKept ResultsKept
  cases i with
  | bfInit => obtain rfl := bfInit_ok h; simp
  | bfEncrypt => obtain ⟨-, rfl⟩ := bfEncrypt_ok h; simp
  | bfDiscard => obtain rfl := bfDiscard_ok h; simp
  | eksExpandSk => obtain ⟨-, -, rfl⟩ := eksExpandSk_ok h; simp
  | eksExpandK => obtain ⟨-, -, rfl⟩ := eksExpandK_ok h; simp
  | eksExpandS => obtain ⟨-, rfl⟩ := eksExpandS_ok h; simp
  | eksSetup => obtain ⟨-, -, rfl⟩ := eksSetup_ok h; simp
  | r64Encode => obtain ⟨-, rfl⟩ := r64EncodeCmd_ok h; simp
  | r64Decode => obtain ⟨-, out, -, rfl⟩ := r64DecodeCmd_ok h; simp
  | xlatToBcrypt => obtain ⟨-, out, -, rfl⟩ := xlatToBcrypt_ok h; simp
  | xlatToStd => obtain ⟨-, out, -, rfl⟩ := xlatToStd_ok h; simp
  | saltGen rng => obtain ⟨-, -, rfl⟩ := saltGen_ok h; cases rng <;> simp
  | saltParse => obtain ⟨-, r, -, rfl⟩ := saltParse_ok h; simp
  | bcDigest => obtain ⟨-, rfl⟩ := bcDigest_ok h; simp
  | bcHash => obtain ⟨-, -, r, -, rfl⟩ := bcHash_ok h; simp
  | bcCheck => obtain ⟨-, -, r, -, rfl⟩ := bcCheck_ok h; simp

section
variable {i : Instr} {e e' : Engine}

theorem CommandFrame.refl (i : Instr) (e : Engine) : CommandFrame i e e := by
  simp [CommandFrame, OperandsKept, ResultsKept]

/-- The report that ends a command is none of the fields of the frame (10_state.md R44). -/
theorem CommandFrame.finish (h : CommandFrame i e e') (code : ErrorCode) : CommandFrame i e (e'.finish code) := h

theorem CommandFrame.lastOp (h : CommandFrame i e e') : e'.lastOp = e.lastOp := by
  obtain ⟨⟨-, -, -, -, hop, -⟩, -⟩ := h
  exact hop

theorem CommandFrame.werr (h : CommandFrame i e e') : e'.werr = e.werr := by
  obtain ⟨⟨-, -, -, -, -, hw, -⟩, -⟩ := h
  exact hw

theorem CommandFrame.cipher (h : CommandFrame i e e')
    (hi : i ∉ [.bfInit, .bfDiscard, .eksExpandSk, .eksExpandK, .eksExpandS, .eksSetup, .bcHash, .bcCheck]) :
    e'.cipher = e.cipher := by
  obtain ⟨-, hc, -⟩ := h
  exact hc hi

theorem CommandFrame.stateValid (h : CommandFrame i e e')
    (hi : i ∉ [.bfInit, .bfDiscard, .eksSetup, .bcHash, .bcCheck]) : e'.stateValid = e.stateValid := by
  obtain ⟨-, -, hv, -⟩ := h
  exact hv hi

theorem CommandFrame.minor (h : CommandFrame i e e') (hi : i ≠ .saltParse) : e'.minor = e.minor := by
  obtain ⟨-, -, -, -, hm, -⟩ := h
  exact (hm hi).1

theorem CommandFrame.strOut (h : CommandFrame i e e')
    (hi : i ∉ [.r64Encode, .xlatToBcrypt, .xlatToStd, .saltGen false, .saltGen true, .bcHash]) :
    e'.strOut = e.strOut ∧ e'.strOutLen = e.strOutLen := by
  obtain ⟨-, -, -, -, -, -, -, -, ho, -⟩ := h
  exact ho hi

theorem CommandFrame.costCtr (h : CommandFrame i e e') (hi : i ∉ [.eksSetup, .bcHash, .bcCheck]) :
    e'.costCtr = e.costCtr := by
  obtain ⟨-, -, -, -, -, -, -, -, -, -, hc, -⟩ := h
  exact hc hi

theorem CommandFrame.matched (h : CommandFrame i e e') (hi : i ≠ .bcCheck) : e'.matched = e.matched := by
  obtain ⟨-, -, -, -, -, -, -, -, -, -, -, hm⟩ := h
  exact hm hi

end

/-- All a command's completion can do: the report, on an engine that keeps the command's frame. -/
theorem exec_next {i : Instr} {s t : State} (h : exec i s = .next t) :
    ∃ e code, CommandFrame i s.eng e ∧ t = { s with eng := e.finish code } := by
  rw [exec_eq_complete] at h
  rcases complete_cases h with ⟨e, he, rfl⟩ | ⟨code, -, rfl⟩
  · exact ⟨e, .none, commandBody_frame he, rfl⟩
  · exact ⟨s.eng, code, .refl i s.eng, rfl⟩

/-- Settles O23: an error writes the report alone, and each command's body keeps its frame. -/
theorem commandsWriteOnlyTheirResults : Obligations.CommandsWriteOnlyTheirResults := by
  intro i s t h
  obtain ⟨e, code, hf, rfl⟩ := exec_next h
  obtain ⟨⟨hkey, hkl, hsi, hsl, hop, hw, hds, hbr⟩, hres⟩ := hf.finish code
  exact ⟨⟨rfl, rfl, hkey, hkl, hsi, hsl, hop, hw, hds, hbr⟩, hres⟩

/-- Every command answers a next state: its report, on an engine that keeps the frame. -/
theorem exec_completes (i : Instr) (s : State) :
    ∃ e code, CommandFrame i s.eng e ∧ exec i s = .next { s with eng := e.finish code } := by
  obtain ⟨t, ht⟩ := complete_next s (commandBody i s.eng)
  rw [← exec_eq_complete] at ht
  obtain ⟨e, code, hf, rfl⟩ := exec_next ht
  exact ⟨e, code, hf, ht⟩

theorem engineTurn_none {s : State} (h : s.eng.pend = none) : engineTurn s = .next s := by
  simp only [engineTurn, h]

theorem engineTurn_legal {s : State} {w : Word} {i : Instr} (hp : s.eng.pend = some w) (hd : decode w = .ok i) :
    engineTurn s = exec i s := by
  simp only [engineTurn, hp, hd]

theorem engineTurn_illegal {s : State} {w : Word} {r : DecodeReject} (hp : s.eng.pend = some w)
    (hd : decode w = .error r) : engineTurn s = .next (raiseError .illegalCommand s) := by
  simp only [engineTurn, hp, hd]

/-- Settles O5: the engine's turn is a decoded command's completion or the report of an illegal word, and both end
in `finish`. -/
theorem everyCommandCompletes : Obligations.EveryCommandCompletes := by
  have completes (i : Instr) (s : State) : ∃ t, exec i s = .next t ∧ t.eng.pend = none ∧ t.eng.busy = false ∧
      t.eng.done = true ∧ t.eng.lastOp = s.eng.lastOp ∧ t.eng.werr = s.eng.werr ∧ t.hosts = s.hosts ∧
      t.turns = s.turns := by
    obtain ⟨e, code, hf, h⟩ := exec_completes i s
    exact ⟨_, h, rfl, rfl, rfl, hf.lastOp, hf.werr, rfl, rfl⟩
  refine ⟨fun s h => engineTurn_none h, fun s h => ?_, completes⟩
  obtain ⟨w, hw⟩ := Option.ne_none_iff_exists'.mp h
  cases hd : decode w with
  | ok i => rw [engineTurn_legal hw hd]; exact completes i s
  | error r => exact ⟨_, engineTurn_illegal hw hd, rfl, rfl, rfl, rfl, rfl, rfl, rfl⟩

/-- Settles O4: the turn is the engine's, as the first choice or by default while a command is pending. -/
theorem stepRunsPendingCommand : Obligations.StepRunsPendingCommand := by
  intro s w i hp hd
  refine ⟨fun rest hr => ?_, fun hr => ?_⟩
  · simp only [step, popTurn_cons hr]
    exact engineTurn_legal hp hd
  · have hturn : defaultTurn s = .engine := if_pos (Engine.busy_eq_true.2 (by simp [hp]))
    simp only [step, popTurn_nil hr, hturn]
    exact engineTurn_legal hp hd

end Sys2Proof.Machine
end

section
/-! PROOF. STATE_VALID is 1 only over a state derived from the seed (10_state.md R24). -/

namespace Sys2Proof.Machine

/-! ## What a host's turn can do to the engine -/

theorem sameReport_werr (e : Engine) (v : Bool) : sameReport e { e with werr := v } := sameReport_refl e

theorem sameReport_writeStatus (e : Engine) (v : Word) : sameReport e (e.writeStatus v) := sameReport_refl e

theorem sameReport_memRead (e : Engine) (addr : Nat) : sameReport e (e.memRead addr).2 := by
  rcases memRead_engine e addr with h | ⟨-, h⟩
  · rw [h]; exact sameReport_refl e
  · rw [h]; exact sameReport_refl e

/-- A MemWrite issues its value on an idle engine, or leaves the report and every result. -/
theorem memWrite_issues_or_sameReport (e : Engine) (addr : Nat) (v : Word) :
    e.memWrite addr v = e.issue v ∨ sameReport e (e.memWrite addr v) := by
  rcases memWrite_cases e addr v with h | ⟨-, h⟩ | ⟨-, h⟩ | ⟨-, h⟩
  · exact .inr (h ▸ sameReport_writeStatus e v)
  · exact .inr (h ▸ sameReport_werr e true)
  · exact .inl h
  · exact .inr h

/-- A host's turn issues a word, or leaves the report and every result. -/
theorem hostTurn_issues_or_sameReport {k : Nat} {s t : State} (h : hostTurn k s = .next t) :
    (∃ w, t.eng = s.eng.issue w) ∨ sameReport s.eng t.eng := by
  rcases hostTurn_next h with rfl | ⟨a, line, x, -, -, hx, rfl⟩
  · exact .inr (sameReport_refl _)
  · obtain ⟨-, -, he | ⟨addr, v, he⟩ | ⟨addr, he⟩⟩ := runLine_next hx
    · exact .inr (he ▸ sameReport_refl _)
    · rcases memWrite_issues_or_sameReport s.eng addr v with hw | hw
      · exact .inl ⟨v, he.trans hw⟩
      · exact .inr (he ▸ hw)
    · exact .inr (he ▸ sameReport_memRead s.eng addr)

/-! ## STATE_VALID and the seed -/

/-- STATE_VALID is 1 only over P and S derived from the seed (10_state.md R24). -/
def Engine.SeedValid (e : Engine) : Prop := e.stateValid = true → SeedDerived e.cipher

theorem Engine.SeedValid.congr {e e' : Engine} (he : e.SeedValid) (hv : e'.stateValid = e.stateValid)
    (hc : e'.cipher = e.cipher) : e'.SeedValid := by
  unfold SeedValid
  rwa [hv, hc]

/-- ExpandKey on a valid state, with no salt or one of 16 bytes, keeps STATE_VALID right. -/
theorem Engine.SeedValid.expand {e : Engine} (he : e.SeedValid) (hv : e.stateValid = true) {salt : Option (List Byte)}
    {key : List Byte} (hs : ∀ d, salt = some d → d.length = 16) (hk : key ≠ []) :
    SeedValid { e with cipher := expandKey salt key e.cipher } :=
  fun _ => .expand salt key _ (he hv) hs hk

theorem Engine.salt_toList_ne_nil (e : Engine) : e.salt.toList ≠ [] := by
  simp

/-- Every command's body keeps STATE_VALID right: it leaves P, S and STATE_VALID, or derives, loads or discards. -/
theorem commandBody_seedValid {i : Instr} {e e' : Engine} (he : e.SeedValid) (h : commandBody i e = .ok e') :
    e'.SeedValid := by
  have hf := commandBody_frame h
  cases i
  case bfInit => obtain rfl := bfInit_ok h; exact fun _ => .seed
  case bfDiscard => obtain rfl := bfDiscard_ok h; exact fun hv => nomatch hv
  case eksExpandSk =>
    obtain ⟨-, hv, rfl⟩ := eksExpandSk_ok h
    exact he.expand hv (by simp) e.pwKey_ne_nil
  case eksExpandK =>
    obtain ⟨-, hv, rfl⟩ := eksExpandK_ok h
    exact he.expand hv (by simp) e.pwKey_ne_nil
  case eksExpandS =>
    obtain ⟨hv, rfl⟩ := eksExpandS_ok h
    exact he.expand hv (by simp) e.salt_toList_ne_nil
  case eksSetup =>
    obtain ⟨-, -, rfl⟩ := eksSetup_ok h
    exact fun _ => seedDerived_eksSetupState e.pwKey_ne_nil (by simp) _
  case bcHash => obtain ⟨-, -, x, -, rfl⟩ := bcHash_ok h; exact fun hv => nomatch hv
  case bcCheck => obtain ⟨-, -, x, -, rfl⟩ := bcCheck_ok h; exact fun hv => nomatch hv
  all_goals exact he.congr (hf.stateValid (by simp)) (hf.cipher (by simp))

theorem engineTurn_seedValid {s t : State} (hs : s.eng.SeedValid) (h : engineTurn s = .next t) : t.eng.SeedValid := by
  rcases engineTurn_next h with ⟨-, rfl⟩ | ⟨w, i, e, -, -, he, rfl⟩ | ⟨w, code, -, rfl, -⟩
  · exact hs
  · exact (commandBody_seedValid hs he).congr rfl rfl
  · exact hs

theorem hostTurn_seedValid {k : Nat} {s t : State} (hs : s.eng.SeedValid) (h : hostTurn k s = .next t) :
    t.eng.SeedValid := by
  rcases hostTurn_issues_or_sameReport h with ⟨w, he⟩ | ⟨-, -, -, -, -, -, hv, hc, -⟩
  · exact he ▸ hs
  · exact hs.congr hv hc

/-- Settles O50, by whose turn it is; a reset leaves STATE_VALID 0. -/
theorem stepKeepsSeedDerived : Obligations.StepKeepsSeedDerived := by
  intro s t hs h
  have hs' : (popTurn s).2.eng.SeedValid := by rwa [popTurn_eng]
  rcases step_next h with ⟨-, he⟩ | ⟨k, -, hk⟩ | ⟨-, rfl⟩
  · exact engineTurn_seedValid hs' he
  · exact hostTurn_seedValid hs' hk
  · exact fun hv => nomatch hv

end Sys2Proof.Machine
end

section
/-! PROOF. The opcode of a decoded word, and the code no command raises (60_exceptions.md R283). -/

namespace Sys2Proof.Machine

/-! ## Opcodes -/

/-- The opcode map is that of `Instr.opcode` (30_encoding.md R102). -/
theorem instrOfOpcode_some {op : Byte} {rng : Bool} {i : Instr} (h : instrOfOpcode op rng = some i) :
    op = i.opcode := by
  unfold instrOfOpcode at h
  split at h
  case h_17 => cases h
  all_goals injection h with h; subst h; exact BitVec.eq_of_toNat_eq ‹_›

/-- A word that decodes has its command's opcode in OP. -/
theorem opField_of_decode {w : Word} {i : Instr} (h : decode w = .ok i) : opField w = i.opcode := by
  unfold decode at h
  split at h
  · cases h
  · split at h
    · cases h
    · rename_i j hj
      split at h
      · cases h
      · injection h with h
        exact h ▸ instrOfOpcode_some hj

/-! ## LENGTH_MISMATCH is never raised (60_exceptions.md R283) -/

/-- A result that is not the error LENGTH_MISMATCH. -/
def NoMismatch {α : Type} (x : Except ErrorCode α) : Prop := x ≠ .error .lengthMismatch

theorem noMismatch_ok {α : Type} (a : α) : NoMismatch (.ok a) := nofun

/-- A check with another code, before a body that does not raise it. -/
theorem noMismatch_check {α : Type} {c : Prop} [Decidable c] {code : ErrorCode} {x : Except ErrorCode α}
    (hc : code ≠ .lengthMismatch) (hx : NoMismatch x) : NoMismatch (if c then .error code else x) := by
  split
  · simpa [NoMismatch] using hc
  · exact hx

/-- An error that a body passes on from a result that does not raise it. -/
theorem noMismatch_passedOn {α β : Type} {x : Except ErrorCode α} {code : ErrorCode} (hx : NoMismatch x)
    (h : x = .error code) : NoMismatch (α := β) (.error code) := by
  rintro ⟨⟩
  exact hx h

theorem noMismatch_costError {α : Type} {c : Byte} {code : ErrorCode} (h : costError c = some code) :
    NoMismatch (α := α) (.error code) := by
  rintro ⟨⟩
  unfold costError at h
  split at h
  · cases h
  · split at h <;> cases h

theorem r64Decode_noMismatch (t : List Byte) : NoMismatch (r64Decode t) := by
  intro h
  rcases r64Decode_error h with ⟨-, hc⟩ | ⟨-, -, hc⟩ <;> cases hc

theorem translate_noMismatch (src dst t : List Byte) : NoMismatch (translate src dst t) :=
  fun h => nomatch translate_error h

theorem parseSalt_noMismatch (s : List Byte) : NoMismatch (parseSalt s) := by
  refine noMismatch_check nofun <| noMismatch_check nofun <| noMismatch_check nofun <| noMismatch_check nofun ?_
  split
  · exact noMismatch_passedOn (r64Decode_noMismatch _) ‹_›
  · exact noMismatch_ok _

theorem hashString_noMismatch (pwKey s : List Byte) : NoMismatch (hashString pwKey s) := by
  unfold hashString
  split
  · exact noMismatch_passedOn (parseSalt_noMismatch _) ‹_›
  · exact noMismatch_ok _

theorem genSalt_noMismatch (cost : Byte) (salt : List Byte) : NoMismatch (genSalt cost salt) := by
  unfold genSalt
  split
  · exact noMismatch_costError ‹_›
  · exact noMismatch_ok _

theorem saltGenFrom_noMismatch (e : Engine) : NoMismatch (saltGenFrom e) := by
  unfold saltGenFrom
  split
  · exact noMismatch_passedOn (genSalt_noMismatch _ _) ‹_›
  · exact noMismatch_ok _

/-- No command's body raises it. -/
theorem commandBody_noMismatch (i : Instr) (e : Engine) : NoMismatch (commandBody i e) := by
  cases i with
  | bfInit => exact noMismatch_ok _
  | bfDiscard => exact noMismatch_ok _
  | bfEncrypt => exact noMismatch_check nofun (noMismatch_ok _)
  | eksExpandS => exact noMismatch_check nofun (noMismatch_ok _)
  | bcDigest => exact noMismatch_check nofun (noMismatch_ok _)
  | r64Encode => exact noMismatch_check nofun (noMismatch_ok _)
  | eksExpandSk => exact noMismatch_check nofun (noMismatch_check nofun (noMismatch_ok _))
  | eksExpandK => exact noMismatch_check nofun (noMismatch_check nofun (noMismatch_ok _))
  | eksSetup =>
    refine noMismatch_check nofun ?_
    split
    · exact noMismatch_costError ‹_›
    · exact noMismatch_ok _
  | r64Decode =>
    refine noMismatch_check nofun ?_
    split
    · exact noMismatch_passedOn (r64Decode_noMismatch _) ‹_›
    · exact noMismatch_ok _
  | xlatToBcrypt =>
    refine noMismatch_check nofun ?_
    split
    · exact noMismatch_passedOn (translate_noMismatch _ _ _) ‹_›
    · exact noMismatch_ok _
  | xlatToStd =>
    refine noMismatch_check nofun ?_
    split
    · exact noMismatch_passedOn (translate_noMismatch _ _ _) ‹_›
    · exact noMismatch_ok _
  | saltGen rng =>
    cases rng with
    | false => exact saltGenFrom_noMismatch e
    | true =>
      refine noMismatch_check nofun ?_
      split
      · exact noMismatch_costError ‹_›
      · exact saltGenFrom_noMismatch _
  | saltParse =>
    refine noMismatch_check nofun ?_
    split
    · exact noMismatch_passedOn (parseSalt_noMismatch _) ‹_›
    · exact noMismatch_ok _
  | bcHash =>
    refine noMismatch_check nofun (noMismatch_check nofun ?_)
    split
    · exact noMismatch_passedOn (hashString_noMismatch _ _) ‹_›
    · exact noMismatch_ok _
  | bcCheck =>
    refine noMismatch_check nofun (noMismatch_check nofun ?_)
    split
    · exact noMismatch_passedOn (hashString_noMismatch _ _) ‹_›
    · exact noMismatch_ok _

end Sys2Proof.Machine
end

section
/-! PROOF. The invariant of the engine and the hosts (10_state.md R27, R33, R35, R36, R41). -/

namespace Sys2Proof.Machine

/-! ## What a command leaves in the fields of the invariant -/

theorem byteAt_eq_getD {cap : Nat} (b : Vector Byte cap) (i : Nat) : byteAt b i = b.toList.getD i 0 := rfl

/-- A byte of a filled buffer past the bytes that filled it. -/
theorem byteAt_padTo_past {n i : Nat} {l : List Byte} (h : l.length ≤ i) : byteAt (padTo n l) i = 0#8 := by
  by_cases hi : i < n
  · rw [byteAt_eq_getD, padTo_toList, List.getD_eq_getElem?_getD, List.getElem?_eq_getElem (by rwa [padList_length]),
      Option.getD_some, padList_getElem, List.getD_eq_getElem?_getD, List.getElem?_eq_none h]
    rfl
  · rw [byteAt_eq_getD, List.getD_eq_getElem?_getD, List.getElem?_eq_none (by simpa using hi)]
    rfl

/-- STR_OUT_LEN within the capacity, and zero bytes past it (10_state.md R33). -/
def Engine.StrOutFilled (e : Engine) : Prop :=
  e.strOutLen.toNat ≤ 64 ∧ ∀ i, e.strOutLen.toNat ≤ i → byteAt e.strOut i = 0#8

theorem Engine.StrOutFilled.congr {e e' : Engine} (he : e.StrOutFilled) (ho : e'.strOut = e.strOut)
    (hl : e'.strOutLen = e.strOutLen) : e'.StrOutFilled := by
  unfold StrOutFilled
  rwa [ho, hl]

theorem Engine.strOutFilled_putStrOut (e : Engine) {out : List Byte} (h : out.length ≤ 64) :
    (e.putStrOut out).StrOutFilled := by
  have hl : (e.putStrOut out).strOutLen.toNat = out.length := by
    rw [putStrOut_strOutLen, BitVec.toNat_ofNat]
    omega
  exact ⟨hl ▸ h, fun i hi => byteAt_padTo_past (hl ▸ hi)⟩

theorem r64Encode_length_le (b : List Byte) : 3 * (r64Encode b).length ≤ 4 * b.length + 2 := by
  rw [r64Encode_length]
  split
  · omega
  · split <;> omega

theorem Engine.bytesText_length_le (e : Engine) : e.bytesText.length ≤ 48 := by
  simp [bytesText, firstBytes_length]

theorem Engine.strInText_length_le (e : Engine) : e.strInText.length ≤ 64 := by
  simp [strInText, firstBytes_length]

theorem commandBody_strOutFilled {i : Instr} {e e' : Engine} (he : e.StrOutFilled) (h : commandBody i e = .ok e') :
    e'.StrOutFilled := by
  have hf := commandBody_frame h
  cases i
  case r64Encode =>
    obtain ⟨-, rfl⟩ := r64EncodeCmd_ok h
    have hb := e.bytesText_length_le
    have hr := r64Encode_length_le e.bytesText
    exact e.strOutFilled_putStrOut (by omega)
  case xlatToBcrypt =>
    obtain ⟨-, out, ho, rfl⟩ := xlatToBcrypt_ok h
    exact e.strOutFilled_putStrOut ((translate_ok ho).1 ▸ e.strInText_length_le)
  case xlatToStd =>
    obtain ⟨-, out, ho, rfl⟩ := xlatToStd_ok h
    exact e.strOutFilled_putStrOut ((translate_ok ho).1 ▸ e.strInText_length_le)
  case saltGen rng =>
    obtain ⟨-, -, rfl⟩ := saltGen_ok h
    exact Engine.strOutFilled_putStrOut _ (by rw [saltString_length (by simp)]; decide)
  case bcHash =>
    obtain ⟨-, -, x, hx, rfl⟩ := bcHash_ok h
    exact (e.strOutFilled_putStrOut (by rw [hashString_length hx]; decide)).congr rfl rfl
  all_goals exact he.congr (hf.strOut (by simp)).1 (hf.strOut (by simp)).2

/-- COST_CTR counts a whole cost loop or none (10_state.md R35). -/
def CostCtrWhole (n : Word) : Prop := n = 0#32 ∨ ∃ c, 4 ≤ c ∧ c ≤ 31 ∧ n = BitVec.ofNat 32 (2 ^ c)

theorem parseSalt_minor {s : List Byte} {r : ParsedSalt} (h : parseSalt s = .ok r) : isMinor r.minor = true := by
  obtain ⟨-, -, hf, -, b, -, rfl⟩ := parseSalt_ok h
  exact (formatOk_iff.1 hf).1

theorem parseSalt_cost {s : List Byte} {r : ParsedSalt} (h : parseSalt s = .ok r) : 4 ≤ r.cost ∧ r.cost ≤ 31 := by
  obtain ⟨-, -, hf, -, b, -, rfl⟩ := parseSalt_ok h
  obtain ⟨-, -, -, hc⟩ := formatOk_iff.1 hf
  exact hc

theorem hashString_costCtr {pwKey s : List Byte} {x : HashResult} (h : hashString pwKey s = .ok x) :
    CostCtrWhole x.costCtr := by
  obtain ⟨r, hr, hc, -⟩ := hashString_ok h
  exact .inr ⟨r.cost, (parseSalt_cost hr).1, (parseSalt_cost hr).2, hc⟩

theorem commandBody_costCtr {i : Instr} {e e' : Engine} (he : CostCtrWhole e.costCtr) (h : commandBody i e = .ok e') :
    CostCtrWhole e'.costCtr := by
  have hf := commandBody_frame h
  cases i
  case eksSetup =>
    obtain ⟨-, hc, rfl⟩ := eksSetup_ok h
    obtain ⟨h4, h31⟩ := costError_none.1 hc
    exact .inr ⟨_, h4, h31, by simp [eksSetupState_eq]⟩
  case bcHash => obtain ⟨-, -, x, hx, rfl⟩ := bcHash_ok h; exact hashString_costCtr hx
  case bcCheck => obtain ⟨-, -, x, hx, rfl⟩ := bcCheck_ok h; exact hashString_costCtr hx
  all_goals exact (hf.costCtr (by simp)).symm ▸ he

theorem commandBody_minor {i : Instr} {e e' : Engine} (he : e.minor = 0#8 ∨ isMinor e.minor = true)
    (h : commandBody i e = .ok e') : e'.minor = 0#8 ∨ isMinor e'.minor = true := by
  by_cases hi : i = .saltParse
  · subst hi
    obtain ⟨-, r, hr, rfl⟩ := saltParse_ok h
    exact .inr (parseSalt_minor hr)
  · rwa [(commandBody_frame h).minor hi]

/-- Where MATCH was 0, only BC_CHECK sets it, and it discards the cipher state (43_bcrypt.md R255). -/
theorem commandBody_matched {i : Instr} {e e' : Engine} (he : e.matched = false) (h : commandBody i e = .ok e')
    (hm : e'.matched = true) : i = .bcCheck ∧ e'.stateValid = false := by
  by_cases hi : i = .bcCheck
  · subst hi
    obtain ⟨-, -, x, -, rfl⟩ := bcCheck_ok h
    exact ⟨rfl, rfl⟩
  · rw [(commandBody_frame h).matched hi, he] at hm
    cases hm

/-! ## The invariant of the engine -/

theorem Engine.Inv.strOutFilled {e : Engine} (h : e.Inv) : e.StrOutFilled := ⟨h.strOutLen, h.strOutTail⟩

/-- The reset values meet the invariant, whatever the model's own counts (70_reset_and_hazards.md R320). -/
theorem applyReset_inv (e : Engine) : e.applyReset.Inv where
  issued := nofun
  notDone _ := ⟨rfl, rfl⟩
  matchedBy := nofun
  noMismatch := nofun
  costCtr := .inl rfl
  costCtrErr _ _ := rfl
  minorLegal := .inl rfl
  strOutLen := Nat.zero_le _
  strOutTail i _ := by
    simp only [Engine.applyReset_strOut, Engine.reset, byteAt_eq_getD, Vector.toList_replicate, List.getD_eq_getElem?_getD,
      List.getElem?_replicate]
    split <;> rfl

/-- The invariant reads only what `sameReport` keeps. -/
theorem Engine.Inv.congr {e e' : Engine} (he : e.Inv) (h : sameReport e e') : e'.Inv := by
  obtain ⟨hp, hd, hm, herr, hop, hcc, hv, -, hmin, hso, hsl, -⟩ := h
  obtain ⟨h1, h2, h3, h4, h5, h6, h7, h8, h9⟩ := he
  constructor
  all_goals simpa only [hp, hd, hm, herr, hop, hcc, hv, hmin, hso, hsl]

theorem Engine.Inv.issue {e : Engine} (he : e.Inv) (w : Word) : (e.issue w).Inv where
  issued := by
    rintro _ ⟨⟩
    exact ⟨rfl, rfl, fun h => by simp [h]⟩
  notDone _ := ⟨rfl, rfl⟩
  matchedBy := nofun
  noMismatch := nofun
  costCtr := by
    rw [issue_costCtr]
    split
    · exact .inl rfl
    · exact he.costCtr
  costCtrErr h := absurd rfl h
  minorLegal := he.minorLegal
  strOutLen := he.strOutLen
  strOutTail := he.strOutTail

/-- A pending command that ends without an error keeps the invariant. -/
theorem Engine.Inv.complete {e e' : Engine} {w : Word} {i : Instr} (he : e.Inv) (hp : e.pend = some w)
    (hd : decode w = .ok i) (hb : commandBody i e = .ok e') : (e'.finish .none).Inv := by
  obtain ⟨hdone, hop, -⟩ := he.issued w hp
  obtain ⟨hmatched, -⟩ := he.notDone hdone
  have hop' : e'.lastOp = i.opcode := by rw [(commandBody_frame hb).lastOp, hop, opField_of_decode hd]
  have hctr := commandBody_costCtr he.costCtr hb
  have hminor := commandBody_minor he.minorLegal hb
  obtain ⟨hlen, htail⟩ := commandBody_strOutFilled he.strOutFilled hb
  exact {
    issued := nofun
    notDone := nofun
    matchedBy := fun hm => by
      obtain ⟨rfl, hv⟩ := commandBody_matched hmatched hb hm
      exact ⟨rfl, hop', hv⟩
    noMismatch := nofun
    costCtr := hctr
    costCtrErr := fun h => absurd rfl h
    minorLegal := hminor
    strOutLen := hlen
    strOutTail := htail }

/-- A pending command that ends in an error other than LENGTH_MISMATCH keeps the invariant. -/
theorem Engine.Inv.fail {e : Engine} {w : Word} {code : ErrorCode} (he : e.Inv) (hp : e.pend = some w)
    (hc : code ≠ .lengthMismatch) : (e.finish code).Inv := by
  obtain ⟨hdone, hop, hctr⟩ := he.issued w hp
  obtain ⟨hmatched, -⟩ := he.notDone hdone
  exact {
    issued := nofun
    notDone := nofun
    matchedBy := fun hm => absurd (hmatched.symm.trans hm) nofun
    noMismatch := hc
    costCtr := he.costCtr
    costCtrErr := fun _ hl => hctr (hop ▸ hl)
    minorLegal := he.minorLegal
    strOutLen := he.strOutLen
    strOutTail := he.strOutTail }

/-! ## The invariant of the machine -/

theorem engineTurn_inv {s t : State} (hs : s.Inv) (h : engineTurn s = .next t) : t.Inv := by
  rcases engineTurn_next h with ⟨-, rfl⟩ | ⟨w, i, e, hp, hd, he, rfl⟩ | ⟨w, code, hp, rfl, hcode⟩
  · exact hs
  · exact ⟨hs.eng.complete hp hd he, hs.env⟩
  · have hc : code ≠ .lengthMismatch := by
      rcases hcode with ⟨r, -, rfl⟩ | ⟨i, -, hb⟩
      · nofun
      · rintro rfl
        exact commandBody_noMismatch i s.eng hb
    exact ⟨hs.eng.fail hp hc, hs.env⟩

/-- A host's turn keeps every host's names in canonical form. -/
theorem hostTurn_env {k : Nat} {s t : State} (hs : ∀ h ∈ s.hosts, envSorted h.env = true)
    (h : hostTurn k s = .next t) : ∀ h ∈ t.hosts, envSorted h.env = true := by
  rcases hostTurn_next h with rfl | ⟨a, line, x, ha, -, hx, rfl⟩
  · exact hs
  · obtain ⟨-, henv, -⟩ := runLine_next hx
    intro b hb
    rcases List.mem_or_eq_of_mem_set hb with hb | rfl
    · exact hs b hb
    · exact henv (hs a (List.mem_of_getElem? ha))

theorem hostTurn_inv {k : Nat} {s t : State} (hs : s.Inv) (h : hostTurn k s = .next t) : t.Inv := by
  refine ⟨?_, hostTurn_env hs.env h⟩
  rcases hostTurn_issues_or_sameReport h with ⟨w, he⟩ | he
  · exact he ▸ hs.eng.issue w
  · exact hs.eng.congr he

/-- Settles O51, by whose turn it is. -/
theorem stepKeepsInvariant : Obligations.StepKeepsInvariant := by
  intro s t hs h
  have hs' : (popTurn s).2.Inv := ⟨by rw [popTurn_eng]; exact hs.eng, by rw [popTurn_hosts]; exact hs.env⟩
  rcases step_next h with ⟨-, he⟩ | ⟨k, -, hk⟩ | ⟨-, rfl⟩
  · exact engineTurn_inv hs' he
  · exact hostTurn_inv hs' hk
  · exact ⟨applyReset_inv _, hs'.env⟩

/-- Settles O52: the reset state's engine is that after a RESET, and no host is there. -/
theorem resetMeetsInvariant : Obligations.ResetMeetsInvariant :=
  ⟨⟨applyReset_inv Engine.reset, nofun⟩, rfl⟩

end Sys2Proof.Machine
end

section
/-! PROOF. The host port: issue, STATUS, access while BUSY = 1 (10_state.md R36, R41 to R43; 41_eks_schedule.md R185). -/

namespace Sys2Proof.Machine

/-! ## One access, by what stands at its offset -/

theorem memWrite_eq (e : Engine) (addr : Nat) (v : Word) : e.memWrite addr v =
    if targetOf (wordOffset addr) = .status then e.writeStatus v
    else if e.busy then { e with werr := true }
    else e.store (targetOf (wordOffset addr)) v := rfl

theorem memRead_eq (e : Engine) (addr : Nat) : e.memRead addr =
    if e.busy && !(targetOf (wordOffset addr)).definedWhileBusy then
      (Config.busyRead e.drawStream e.busyReads, { e with busyReads := e.busyReads + 1 })
    else (e.load (targetOf (wordOffset addr)), e) := rfl

theorem memWrite_status {e : Engine} {addr : Nat} (v : Word) (h : targetOf (wordOffset addr) = .status) :
    e.memWrite addr v = e.writeStatus v := by
  rw [memWrite_eq, if_pos h]

theorem memWrite_busy {e : Engine} {addr : Nat} (v : Word) (hp : e.pend ≠ none)
    (h : targetOf (wordOffset addr) ≠ .status) : e.memWrite addr v = { e with werr := true } := by
  rw [memWrite_eq, if_neg h, if_pos (Engine.busy_eq_true.2 hp)]

theorem memWrite_idle {e : Engine} {addr : Nat} {t : Target} (v : Word) (hp : e.pend = none)
    (ht : targetOf (wordOffset addr) = t) (h : t ≠ .status) : e.memWrite addr v = e.store t v := by
  have hb : ¬ e.busy = true := by rw [Engine.busy_eq_true]; exact not_not.2 hp
  rw [memWrite_eq, ht, if_neg h, if_neg hb]

theorem memRead_idle {e : Engine} {addr : Nat} {t : Target} (hp : e.pend = none)
    (ht : targetOf (wordOffset addr) = t) : e.memRead addr = (e.load t, e) := by
  rw [memRead_eq, ht, Engine.busy_eq_false.2 hp]
  rfl

theorem memRead_defined {e : Engine} {addr : Nat} {t : Target} (ht : targetOf (wordOffset addr) = t)
    (h : t.definedWhileBusy = true) : e.memRead addr = (e.load t, e) := by
  rw [memRead_eq, ht, h, Bool.not_true, Bool.and_false]
  rfl

theorem memRead_draw {e : Engine} {addr : Nat} (hp : e.pend ≠ none)
    (h : (targetOf (wordOffset addr)).definedWhileBusy = false) :
    e.memRead addr = (Config.busyRead e.drawStream e.busyReads, { e with busyReads := e.busyReads + 1 }) := by
  rw [memRead_eq, h, Engine.busy_eq_true.2 hp]
  rfl

/-- STATUS is what an access reaches at its one offset. -/
theorem targetOf_wordOffset_status {addr : Nat} : targetOf (wordOffset addr) = .status ↔ wordOffset addr = 0x0008 :=
  targetOf_eq_status (wordOffset_word addr).1 (wordOffset_word addr).2

/-- Settles O6: the write reaches CMD, which issues. -/
theorem commandWriteIssues : Obligations.CommandWriteIssues := by
  intro e addr w hp ha
  have hw : e.memWrite addr w = e.issue w := memWrite_idle w hp (t := .cmd) (by rw [ha]; rfl) (by simp)
  refine ⟨?_, by rw [hw]; rfl⟩
  rw [hw, Engine.issue]
  simp only [clearsCostCtr, opField, Bool.or_eq_true, beq_iff_eq, or_assoc]

/-- Settles O7: only STATUS takes a write while BUSY = 1. -/
theorem writesWhileBusySetWerr : Obligations.WritesWhileBusySetWerr :=
  fun _ _ v hp ha => memWrite_busy v hp fun h => ha (targetOf_wordOffset_status.1 h)

/-- Settles O8: busy or not, the write is `writeStatus`. -/
theorem statusWriteClearsWerr : Obligations.StatusWriteClearsWerr := by
  intro e addr v ha
  rw [memWrite_status v (targetOf_wordOffset_status.2 ha), Engine.writeStatus]
  cases v.getLsbD 4 <;> simp

/-- Settles O9: the three defined offsets load, any other draws. -/
theorem readsWhileBusyAreDraws : Obligations.ReadsWhileBusyAreDraws := by
  intro e addr hp
  refine ⟨fun ha => ?_, fun ha => ?_, fun ha => ?_, fun ha => ?_⟩
  · exact memRead_defined (t := .id) (by rw [ha]; rfl) rfl
  · exact memRead_defined (t := .cmd) (by rw [ha]; rfl) rfl
  · exact memRead_defined (t := .status) (by rw [ha]; rfl) rfl
  · apply memRead_draw hp
    obtain ⟨hw, hl⟩ := wordOffset_word addr
    rw [← Bool.not_eq_true, targetOf_definedWhileBusy hw hl]
    simpa using ha

/-- The layout of the STATUS word, the most significant field first (10_state.md R36). -/
def statusLayout (lastOp code : Byte) (werr matched valid done busy : Bool) :
    BitVec (8 + 8 + 8 + 3 + 1 + 1 + 1 + 1 + 1) :=
  0#8 ++ lastOp ++ code ++ 0#3 ++ BitVec.ofBool werr ++ BitVec.ofBool matched ++ BitVec.ofBool valid ++
    BitVec.ofBool done ++ BitVec.ofBool busy

theorem statusLayout_bits (lastOp code : Byte) (werr matched valid done busy : Bool) :
    (statusLayout lastOp code werr matched valid done busy).getLsbD 0 = busy ∧
    (statusLayout lastOp code werr matched valid done busy).getLsbD 1 = done ∧
    (statusLayout lastOp code werr matched valid done busy).getLsbD 2 = valid ∧
    (statusLayout lastOp code werr matched valid done busy).getLsbD 3 = matched ∧
    (statusLayout lastOp code werr matched valid done busy).getLsbD 4 = werr := by
  simp only [statusLayout, BitVec.getLsbD_append]
  simp

theorem statusLayout_fields (lastOp code : Byte) (werr matched valid done busy : Bool) :
    (statusLayout lastOp code werr matched valid done busy).extractLsb' 5 3 = 0#3 ∧
    (statusLayout lastOp code werr matched valid done busy).extractLsb' 8 8 = code ∧
    (statusLayout lastOp code werr matched valid done busy).extractLsb' 16 8 = lastOp ∧
    (statusLayout lastOp code werr matched valid done busy).extractLsb' 24 8 = 0#8 := by
  simp (disch := decide) only [statusLayout, BitVec.extractLsb'_append_eq_of_le]
  exact ⟨BitVec.extractLsb'_append_eq_right, BitVec.extractLsb'_append_eq_right, BitVec.extractLsb'_append_eq_right,
    BitVec.extractLsb'_eq_self⟩

theorem statusWord_eq_layout (e : Engine) : e.statusWord =
    statusLayout e.lastOp e.err.code e.werr e.matched e.stateValid e.done e.pend.isSome := rfl

/-- Settles O10: the fields are cut out of their concatenation, and the codes are those of the table. -/
theorem statusFieldsStandAtTheirBits : Obligations.StatusFieldsStandAtTheirBits := by
  refine ⟨fun e => ?_, rfl, rfl, rfl, rfl, rfl, rfl, rfl, rfl, rfl, rfl, rfl, rfl⟩
  rw [statusWord_eq_layout]
  obtain ⟨hbusy, hdone, hvalid, hmatch, hwerr⟩ :=
    statusLayout_bits e.lastOp e.err.code e.werr e.matched e.stateValid e.done e.pend.isSome
  exact ⟨hbusy, hdone, hvalid, hmatch, hwerr, statusLayout_fields _ _ _ _ _ _ _⟩

/-- What the engine keeps while its pending command is neither completed nor reset (41_eks_schedule.md R185). -/
def SameButPort (e e' : Engine) : Prop := e' = { e with werr := e'.werr, busyReads := e'.busyReads }

theorem memWrite_sameButPort {e : Engine} (hp : e.pend ≠ none) (addr : Nat) (v : Word) :
    SameButPort e (e.memWrite addr v) := by
  by_cases h : targetOf (wordOffset addr) = .status
  · rw [memWrite_status v h]; rfl
  · rw [memWrite_busy v hp h]; rfl

theorem memRead_sameButPort (e : Engine) (addr : Nat) : SameButPort e (e.memRead addr).2 := by
  rcases memRead_engine e addr with h | ⟨-, h⟩ <;> rw [h] <;> rfl

theorem hostTurn_sameButPort {k : Nat} {s t : State} (hp : s.eng.pend ≠ none) (h : hostTurn k s = .next t) :
    SameButPort s.eng t.eng := by
  rcases hostTurn_next h with rfl | ⟨a, line, x, -, -, hx, rfl⟩
  · rfl
  · obtain ⟨-, -, he | ⟨addr, v, he⟩ | ⟨addr, he⟩⟩ := runLine_next hx
    · rw [he]; rfl
    · rw [he]; exact memWrite_sameButPort hp addr v
    · rw [he]; exact memRead_sameButPort s.eng addr

/-- Settles O16: the step is a host's turn, and no access of a host moves more than WERR and the count. -/
theorem pendingCommandCannotBeCancelled : Obligations.PendingCommandCannotBeCancelled := by
  intro s t w hp h hengine hreset
  rcases step_next h with ⟨hturn, -⟩ | ⟨k, -, hk⟩ | ⟨hturn, -⟩
  · exact absurd hturn hengine
  · have hsame : SameButPort s.eng t.eng := by
      rw [← popTurn_eng s]
      exact hostTurn_sameButPort (by simp [hp]) hk
    exact ⟨hsame, by rw [hsame]; exact hp⟩
  · exact absurd hturn hreset

end Sys2Proof.Machine
end

section
/-! PROOF. The register map while BUSY = 0 (10_state.md R40, R45, R46; 20_memory.md R73). -/

namespace Sys2Proof.Machine

/-! ## The rows of words -/

theorem wordOffset_eq (addr : Nat) : wordOffset addr = addr / 4 % 2048 * 4 := rfl

theorem wordOffset_self {off : Nat} (hw : off % 4 = 0) (hl : off < 0x2000) : wordOffset off = off := by
  rw [wordOffset_eq]; omega

/-- The rows of the map that are a run of words, each word by its number (10_state.md R40). -/
theorem targetOf_wordRows :
    (∀ k < 18, targetOf (wordOffset (0x0040 + 4 * k)) = .keyWord k) ∧
    (∀ k < 4, targetOf (wordOffset (0x0090 + 4 * k)) = .saltWord k) ∧
    (∀ k < 6, targetOf (wordOffset (0x00A0 + 4 * k)) = .digestWord k) ∧
    (∀ k < 12, targetOf (wordOffset (0x00C0 + 4 * k)) = .bytesWord k) ∧
    (∀ k < 16, targetOf (wordOffset (0x0100 + 4 * k)) = .strInWord k) ∧
    (∀ k < 16, targetOf (wordOffset (0x0140 + 4 * k)) = .strOutWord k) ∧
    (∀ i < 18, targetOf (wordOffset (0x0400 + 4 * i)) = .pWord i) ∧
    ∀ b < 4, ∀ j < 256, targetOf (wordOffset (0x1000 + 0x400 * b + 4 * j)) = .sWord b j := by
  refine ⟨?_, ?_, ?_, ?_, ?_, ?_, ?_, fun b hb j hj => ?_⟩
  case refine_8 =>
    have hbox : (0x1000 + 0x400 * b + 4 * j - 0x1000) / 0x400 = b := by omega
    have hword : (0x1000 + 0x400 * b + 4 * j - 0x1000) % 0x400 / 4 = j := by omega
    rw [wordOffset_self (by omega) (by omega)]
    unfold targetOf
    simp (disch := omega) only [if_neg, if_pos, hbox, hword]
  all_goals
    intro k hk
    rw [wordOffset_self (by omega) (by omega)]
    unfold targetOf
    simp (disch := omega) only [if_neg, if_pos, Nat.add_sub_cancel_left, Nat.mul_div_cancel_left]

/-! ## Reads -/

theorem byteAt_eq {cap : Nat} (b : Vector Byte cap) {i : Nat} (hi : i < cap) : byteAt b i = b[i] := by
  simp [byteAt_eq_getD, List.getD_eq_getElem?_getD, hi]

/-- A read of a buffer word is its four bytes, the first the most significant (20_memory.md R73). -/
theorem memRead_bufferWord {cap addr k : Nat} {e : Engine} {buf : Vector Byte cap} {t : Target} (hp : e.pend = none)
    (ht : targetOf (wordOffset addr) = t) (hload : e.load t = loadWord buf k) (hk : 4 * k + 3 < cap) :
    e.memRead addr = (buf[4 * k] ++ buf[4 * k + 1] ++ buf[4 * k + 2] ++ buf[4 * k + 3], e) := by
  rw [memRead_idle hp ht, hload, loadWord, be32, byteAt_eq, byteAt_eq, byteAt_eq, byteAt_eq]

theorem load_pWord (e : Engine) (i : Fin 18) : e.load (.pWord i) = if e.stateValid then e.cipher.p[i] else 0#32 := by
  have hw : e.cipher.p.toList.getD i 0 = e.cipher.p[i] := by simp [List.getD_eq_getElem?_getD]
  rw [← hw]
  rfl

theorem load_sWord (e : Engine) (b : Fin 4) (j : Fin 256) :
    e.load (.sWord b j) = if e.stateValid then (e.cipher.s[b])[j] else 0#32 := by
  have hw : ((e.cipher.s.toList.map Vector.toList).getD b []).getD j 0 = (e.cipher.s[b])[j] := by
    simp [List.getD_eq_getElem?_getD]
  rw [← hw]
  rfl

/-- Settles O11, row by row. -/
theorem idleReadsFollowTheRegisterMap : Obligations.IdleReadsFollowTheRegisterMap := by
  intro e hp
  obtain ⟨hkey, hsalt, hdigest, hbytes, hstrIn, hstrOut, hpw, hsw⟩ := targetOf_wordRows
  refine ⟨memRead_idle hp (t := .id) rfl, memRead_idle hp (t := .cmd) rfl, memRead_idle hp (t := .status) rfl,
    memRead_idle hp (t := .dataL) rfl, memRead_idle hp (t := .dataR) rfl, memRead_idle hp (t := .cost) rfl,
    memRead_idle hp (t := .minor) rfl, memRead_idle hp (t := .keyLen) rfl, memRead_idle hp (t := .strInLen) rfl,
    memRead_idle hp (t := .strOutLen) rfl, memRead_idle hp (t := .bytesLen) rfl, memRead_idle hp (t := .costCtr) rfl,
    fun k => ?_, fun k => ?_, fun k => ?_, fun k => ?_, fun k => ?_, fun k => ?_, fun i => ?_, fun b j => ?_⟩
  · exact memRead_bufferWord hp (hkey k k.isLt) rfl (by omega)
  · exact memRead_bufferWord hp (hsalt k k.isLt) rfl (by omega)
  · exact memRead_bufferWord hp (hdigest k k.isLt) rfl (by omega)
  · exact memRead_bufferWord hp (hbytes k k.isLt) rfl (by omega)
  · exact memRead_bufferWord hp (hstrIn k k.isLt) rfl (by omega)
  · exact memRead_bufferWord hp (hstrOut k k.isLt) rfl (by omega)
  · rw [memRead_idle hp (hpw i i.isLt), load_pWord]
  · rw [memRead_idle hp (hsw b b.isLt j j.isLt), load_sWord]

/-! ## Writes -/

theorem setWidth_eq_lowByte (v : Word) : v.setWidth 8 = v.extractLsb' 0 8 := by
  rw [BitVec.setWidth_eq_extractLsb' (by decide)]

/-- A stored word, byte by byte: its own four bytes, the first the most significant (20_memory.md R73). -/
theorem storeWord_getElem {cap : Nat} (b : Vector Byte cap) (k : Nat) (v : Word) {i : Nat} (hi : i < cap) :
    (storeWord b k v)[i]'hi = if i / 4 = k then v.extractLsb' (24 - 8 * (i % 4)) 8 else b[i] := by
  simp only [storeWord, Vector.getElem_setIfInBounds]
  by_cases hk : i / 4 = k
  · obtain rfl | rfl | rfl | rfl : i = 4 * k ∨ i = 4 * k + 1 ∨ i = 4 * k + 2 ∨ i = 4 * k + 3 := by omega
    all_goals simp [hk]
  · simp (disch := omega) only [if_neg]

/-- A write outside the rows that are written is ignored while BUSY = 0 (10_state.md R46): the other rows store
nothing. -/
theorem memWrite_ignored {e : Engine} {addr off : Nat} (v : Word) (hp : e.pend = none) (ha : wordOffset addr = off)
    (ho : ¬ ((0x0004 ≤ off ∧ off ≤ 0x0014) ∨ (0x001C ≤ off ∧ off ≤ 0x0020) ∨ off = 0x0028 ∨
      (0x0040 ≤ off ∧ off ≤ 0x0087) ∨ (0x0090 ≤ off ∧ off ≤ 0x009F) ∨ (0x00C0 ≤ off ∧ off ≤ 0x00EF) ∨
      (0x0100 ≤ off ∧ off ≤ 0x013F))) : e.memWrite addr v = e := by
  obtain ⟨hw, hl⟩ := wordOffset_word addr
  rw [ha] at hw hl
  have hstore : targetOf off ≠ .status ∧ e.store (targetOf off) v = e := by
    apply targetOf_rows (P := fun t => t ≠ .status ∧ e.store t v = e) off hw hl
    case id | minor | strOutLen | costCtr | digestWord | strOutWord | pWord | sWord | reserved =>
      exact fun _ => ⟨by simp, rfl⟩
    all_goals intro h; omega
  rw [memWrite_idle v hp (congrArg targetOf ha) hstore.1, hstore.2]

/-- Settles O13: the map has nothing at these offsets, so nothing is read or stored. -/
theorem reservedOffsetsReadZero : Obligations.ReservedOffsetsReadZero := by
  intro e off v hp ho
  obtain ⟨hw, hl⟩ := wordOffset_word off
  have ht : targetOf (wordOffset off) = .reserved := by
    rw [targetOf_reserved hw hl, wordOffset_eq]
    omega
  exact ⟨memRead_idle hp ht, memWrite_idle v hp ht (by simp)⟩

/-- Settles O12, row by row; the read-only rows as one. -/
theorem idleWritesFollowTheRegisterMap : Obligations.IdleWritesFollowTheRegisterMap := by
  intro e v hp
  obtain ⟨hkey, hsalt, -, hbytes, hstrIn, -⟩ := targetOf_wordRows
  rw [← setWidth_eq_lowByte]
  refine ⟨memWrite_idle v hp (t := .dataL) rfl (by simp), memWrite_idle v hp (t := .dataR) rfl (by simp),
    memWrite_idle v hp (t := .cost) rfl (by simp), memWrite_idle v hp (t := .keyLen) rfl (by simp),
    memWrite_idle v hp (t := .strInLen) rfl (by simp), memWrite_idle v hp (t := .bytesLen) rfl (by simp),
    fun k => ⟨_, memWrite_idle v hp (hkey k k.isLt) (by simp), fun i => storeWord_getElem _ _ _ i.isLt⟩,
    fun k => ⟨_, memWrite_idle v hp (hsalt k k.isLt) (by simp), fun i => storeWord_getElem _ _ _ i.isLt⟩,
    fun k => ⟨_, memWrite_idle v hp (hbytes k k.isLt) (by simp), fun i => storeWord_getElem _ _ _ i.isLt⟩,
    fun k => ⟨_, memWrite_idle v hp (hstrIn k k.isLt) (by simp), fun i => storeWord_getElem _ _ _ i.isLt⟩,
    fun off ho => memWrite_ignored v hp (wordOffset_eq off) ?_⟩
  simp only [List.mem_cons, List.not_mem_nil, or_false] at ho
  omega

end Sys2Proof.Machine
end

section
/-! PROOF. What an access sees of its address and width (20_memory.md R70 to R72), and the engine a platform address
reaches (60_exceptions.md R302). -/

namespace Sys2Proof.Machine

/-! ## The bits of an address outside the offset -/

/-- A window's base and the low two bits of an address are not in its word offset (20_memory.md R72). -/
theorem wordOffset_base_add {base off : Nat} (hb : base % 0x2000 = 0) : wordOffset (base + off) = wordOffset off := by
  simp only [wordOffset_eq]
  omega

theorem wordOffset_add_low {off r : Nat} (hw : off % 4 = 0) (hr : r < 4) : wordOffset (off + r) = wordOffset off := by
  simp only [wordOffset_eq]
  omega

theorem memRead_congr (e : Engine) {a b : Nat} (h : wordOffset a = wordOffset b) : e.memRead a = e.memRead b := by
  rw [memRead_eq, h, ← memRead_eq]

theorem memWrite_congr (e : Engine) {a b : Nat} (v : Word) (h : wordOffset a = wordOffset b) :
    e.memWrite a v = e.memWrite b v := by
  rw [memWrite_eq, h, ← memWrite_eq]

/-- Settles O14: an access sees its word offset alone. -/
theorem addressBitsOutsideTheOffsetAreIgnored : Obligations.AddressBitsOutsideTheOffsetAreIgnored := by
  intro e base off r v hb _ hw hr
  have ho : wordOffset (base + off + r) = wordOffset off := by
    rw [Nat.add_assoc, wordOffset_base_add hb, wordOffset_add_low hw hr]
  exact ⟨memRead_congr e ho, memWrite_congr e v ho⟩

/-! ## The width of a host's access -/

/-- The width is looked at first (20_memory.md R71). -/
theorem withAddress_otherWidth {width : Nat} (hw : width ≠ 4) (h : HostAgent) (r : Reg) (k : HostValue)
    (go : Nat → LineResult) : h.withAddress r k width go = .refused (.accessWidth width) :=
  if_pos hw

theorem runLine_wr (h : HostAgent) (e : Engine) (r : Reg) (k v : HostValue) (width : Nat) :
    h.runLine e (.wr r k width v) = h.withAddress r k width fun a =>
      h.withValue v fun n => .next (h.advance, e.memWrite a (BitVec.ofInt 32 n)) := rfl

theorem runLine_rd (h : HostAgent) (e : Engine) (r : Reg) (k : HostValue) (width x : Nat) :
    h.runLine e (.rd r k width x) = h.withAddress r k width fun a =>
      .next (h.advanceBinding x (e.memRead a).1.toNat, (e.memRead a).2) := rfl

/-- Settles O15: both lines find their address first. -/
theorem otherWidthsAreRefused : Obligations.OtherWidthsAreRefused := by
  intro h e r k v x width hw
  rw [runLine_wr, runLine_rd]
  exact ⟨withAddress_otherWidth hw h r k _, withAddress_otherWidth hw h r k _⟩

/-! ## The windows of a platform -/

theorem Slot.holds_iff {slot : Slot} {addr : Nat} :
    slot.holds addr = true ↔ slot.base ≤ addr ∧ addr < slot.base + 0x2000 := by
  simp [holds]

/-- Every window of a platform stands on an 8 KiB boundary (log 8). -/
theorem Platform.base_aligned {p : Platform} (hp : p.wf = true) {k : Nat} {slot : Slot} (hk : p[k]? = some slot) :
    slot.base % 0x2000 = 0 := by
  simp only [wf, Bool.and_eq_true, List.all_eq_true, beq_iff_eq] at hp
  obtain ⟨⟨⟨-, hbase⟩, -⟩, -⟩ := hp
  exact hbase slot (List.mem_of_getElem? hk)

/-- No two windows of a platform stand at one place. -/
theorem Platform.base_ne {p : Platform} (hp : p.wf = true) {j k : Nat} {a b : Slot} (hj : p[j]? = some a)
    (hk : p[k]? = some b) (hjk : j ≠ k) : a.base ≠ b.base := by
  simp only [wf, Bool.and_eq_true, decide_eq_true_eq] at hp
  obtain ⟨⟨-, hnodup⟩, -⟩ := hp
  obtain ⟨hjlt, rfl⟩ := List.getElem?_eq_some_iff.1 hj
  obtain ⟨hklt, rfl⟩ := List.getElem?_eq_some_iff.1 hk
  intro h
  exact hjk ((hnodup.getElem_inj_iff (hi := by simpa) (hj := by simpa)).1 (by simpa using h))

/-- An address lies in the window of one slot at most. -/
theorem Platform.not_holds_of_ne {p : Platform} (hp : p.wf = true) {j k : Nat} {a b : Slot} (hj : p[j]? = some a)
    (hk : p[k]? = some b) (hjk : j ≠ k) {addr : Nat} (hb : b.holds addr = true) : ¬ a.holds addr = true := by
  rw [Slot.holds_iff] at hb ⊢
  have hja := base_aligned hp hj
  have hka := base_aligned hp hk
  have hne := base_ne hp hj hk hjk
  omega

/-- A platform's write, slot by slot. -/
theorem Platform.memWrite_getElem? (p : Platform) (addr : Nat) (v : Word) (j : Nat) : (p.memWrite addr v)[j]? =
    p[j]?.map fun slot => if slot.holds addr then
      { slot with machine := { slot.machine with eng := slot.machine.eng.memWrite addr v } } else slot :=
  List.getElem?_map

/-- Settles O54: the slot's window holds the address and no other does, and its base is not seen. -/
theorem platformWriteReachesOneInstance : Obligations.PlatformWriteReachesOneInstance := by
  intro p k off slot v hp hk hoff
  have hholds : slot.holds (slot.base + off) = true := Slot.holds_iff.2 (by omega)
  refine ⟨?_, fun j hjk => ?_⟩
  · rw [Platform.memWrite_getElem?, hk, Option.map_some, if_pos hholds,
      memWrite_congr _ v (wordOffset_base_add (Platform.base_aligned hp hk))]
  · rw [Platform.memWrite_getElem?]
    cases hj : p[j]? with
    | none => rfl
    | some a => rw [Option.map_some, if_neg (Platform.not_holds_of_ne hp hj hk hjk hholds)]

end Sys2Proof.Machine
end

section
/-! PROOF. Bytes of a buffer at and past its length have no effect (20_memory.md R87; 70_reset_and_hazards.md R337). -/

namespace Sys2Proof.Machine

/-- An engine with each buffer that has a length rewritten. -/
def Engine.mapBuffers (fk : Vector Byte 72 → Vector Byte 72) (fs : Vector Byte 64 → Vector Byte 64)
    (fb : Vector Byte 48 → Vector Byte 48) (e : Engine) : Engine :=
  { e with key := fk e.key, strIn := fs e.strIn, bytes := fb e.bytes }

/-! ## A command's body on an engine with rewritten buffers -/

/-- A check that both engines pass or fail. -/
theorem map_check {c : Prop} [Decidable c] {code : ErrorCode} {g : Engine → Engine} {x y : Except ErrorCode Engine}
    (h : y = x.map g) : (if c then .error code else y) = (if c then .error code else x).map g := by
  split
  · rfl
  · exact h

section
variable {fk : Vector Byte 72 → Vector Byte 72} {fs : Vector Byte 64 → Vector Byte 64}
  {fb : Vector Byte 48 → Vector Byte 48} {e : Engine}

@[simp] theorem Engine.mapBuffers_cost : (e.mapBuffers fk fs fb).cost = e.cost := rfl
@[simp] theorem Engine.mapBuffers_salt : (e.mapBuffers fk fs fb).salt = e.salt := rfl

/-- The salt generator reads none of the buffers. -/
theorem saltGenFrom_mapBuffers :
    saltGenFrom (e.mapBuffers fk fs fb) = (saltGenFrom e).map (Engine.mapBuffers fk fs fb) := by
  unfold saltGenFrom
  rw [Engine.mapBuffers_cost, Engine.mapBuffers_salt]
  cases genSalt e.cost e.salt.toList <;> rfl

/-- A command's body reads no byte of a buffer but those below its length, and keeps the others, but R64_DECODE, which
writes BYTES. -/
theorem commandBody_mapBuffers {i : Instr} (hkey : (e.mapBuffers fk fs fb).password = e.password)
    (hstr : (e.mapBuffers fk fs fb).strInText = e.strInText)
    (hbytes : (e.mapBuffers fk fs fb).bytesText = e.bytesText) (hi : i = .r64Decode → fb = id) :
    commandBody i (e.mapBuffers fk fs fb) = (commandBody i e).map (Engine.mapBuffers fk fs fb) := by
  have hpw : (e.mapBuffers fk fs fb).pwKey = e.pwKey := congrArg (· ++ [0]) hkey
  cases i with
  | bfInit => rfl
  | bfDiscard => rfl
  | bfEncrypt => exact map_check rfl
  | eksExpandS => exact map_check rfl
  | bcDigest => exact map_check rfl
  | eksExpandSk =>
    refine map_check (map_check ?_)
    rw [hpw]; rfl
  | eksExpandK =>
    refine map_check (map_check ?_)
    rw [hpw]; rfl
  | eksSetup =>
    refine map_check ?_
    rw [hpw, Engine.mapBuffers_cost]
    cases costError e.cost <;> rfl
  | r64Encode =>
    refine map_check ?_
    rw [hbytes]; rfl
  | r64Decode =>
    obtain rfl := hi rfl
    refine map_check ?_
    rw [hstr]
    cases r64Decode e.strInText <;> rfl
  | xlatToBcrypt =>
    refine map_check ?_
    rw [hstr]
    cases toBcrypt e.strInText <;> rfl
  | xlatToStd =>
    refine map_check ?_
    rw [hstr]
    cases toStd e.strInText <;> rfl
  | saltGen rng =>
    cases rng with
    | false => exact saltGenFrom_mapBuffers
    | true =>
      refine map_check ?_
      rw [Engine.mapBuffers_cost]
      cases costError e.cost with
      | some code => rfl
      | none => exact saltGenFrom_mapBuffers (e := e.drawSalt)
  | saltParse =>
    refine map_check ?_
    rw [hstr]
    cases parseSalt e.strInText <;> rfl
  | bcHash =>
    refine map_check (map_check ?_)
    rw [hpw, hstr]
    cases hashString e.pwKey e.strInText <;> rfl
  | bcCheck =>
    refine map_check (map_check ?_)
    rw [hpw, hstr]
    cases hashString e.pwKey (e.strInText.take Config.saltStringLen) <;> rfl

/-- A command runs alike on the engine with rewritten buffers. -/
theorem exec_mapBuffers {i : Instr} {s t : State} (hkey : (s.eng.mapBuffers fk fs fb).password = s.eng.password)
    (hstr : (s.eng.mapBuffers fk fs fb).strInText = s.eng.strInText)
    (hbytes : (s.eng.mapBuffers fk fs fb).bytesText = s.eng.bytesText) (hi : i = .r64Decode → fb = id)
    (h : exec i s = .next t) :
    exec i { s with eng := s.eng.mapBuffers fk fs fb } = .next { t with eng := t.eng.mapBuffers fk fs fb } := by
  rw [exec_eq_complete] at h ⊢
  rw [commandBody_mapBuffers hkey hstr hbytes hi]
  rcases complete_cases h with ⟨e, he, rfl⟩ | ⟨code, he, rfl⟩
  · rw [he]; rfl
  · rw [he]; rfl

end

/-- Settles O24: the bytes below each length, which are all a command reads, are the same. -/
theorem bytesBeyondALengthHaveNoEffect : Obligations.BytesBeyondALengthHaveNoEffect := by
  intro i s t key strIn bytes hkey hstr hbytes h
  refine ⟨?_, fun hi => ?_⟩
  · exact exec_mapBuffers (fk := fun _ => key) (fs := fun _ => strIn) (fb := id) (firstBytes_congr hkey)
      (firstBytes_congr hstr) rfl (fun _ => rfl) h
  · exact exec_mapBuffers (fk := id) (fs := id) (fb := fun _ => bytes) rfl rfl (firstBytes_congr hbytes)
      (fun hd => absurd hd hi) h

end Sys2Proof.Machine
end

section
/-! PROOF. LOADKEY (30_encoding.md R124): packed words, consecutive stores, and the run of the lines. -/

namespace Sys2Proof.Machine

/-! ## Packed words (20_memory.md R73, R74) -/

/-- The bytes of a big-endian word, the first the most significant. -/
theorem be32_byte (b0 b1 b2 b3 : Byte) {m : Nat} (hm : m < 4) :
    (be32 b0 b1 b2 b3).extractLsb' (24 - 8 * m) 8 = [b0, b1, b2, b3].getD m 0 := by
  unfold be32
  obtain rfl | rfl | rfl | rfl : m = 0 ∨ m = 1 ∨ m = 2 ∨ m = 3 := by omega
  all_goals simp (disch := decide) only [Nat.reduceMul, Nat.reduceSub, BitVec.extractLsb'_append_eq_of_le]
  · exact BitVec.extractLsb'_eq_self
  · exact BitVec.extractLsb'_append_eq_right
  · exact BitVec.extractLsb'_append_eq_right
  · exact BitVec.extractLsb'_append_eq_right

/-- The first word of a string, absent bytes 0. -/
theorem packWords_of_ne_nil {b : List Byte} (hb : b ≠ []) :
    packWords b = be32 (b.getD 0 0) (b.getD 1 0) (b.getD 2 0) (b.getD 3 0) :: packWords (b.drop 4) := by
  match b with
  | [_] | [_, _] | [_, _, _] | _ :: _ :: _ :: _ :: _ => rfl

theorem packWords_length (b : List Byte) : (packWords b).length = (b.length + 3) / 4 := by
  fun_induction packWords b with
  | case1 | case2 | case3 | case4 => simp
  | case5 b0 b1 b2 b3 rest ih => simp only [List.length_cons, ih]; omega

/-- Byte `m` of packed word `j` is byte `4j + m` of the string. -/
theorem packWords_byte {b : List Byte} {j m : Nat} (hj : j < (packWords b).length) (hm : m < 4) :
    ((packWords b)[j]).extractLsb' (24 - 8 * m) 8 = b.getD (4 * j + m) 0 := by
  have hb : b ≠ [] := by rintro rfl; cases hj
  induction j generalizing b with
  | zero =>
    simp only [packWords_of_ne_nil hb, List.getElem_cons_zero, be32_byte _ _ _ _ hm]
    obtain rfl | rfl | rfl | rfl : m = 0 ∨ m = 1 ∨ m = 2 ∨ m = 3 := by omega
    all_goals rfl
  | succ j ih =>
    have hj' : j < (packWords (b.drop 4)).length := by simpa [packWords_of_ne_nil hb] using hj
    have hb' : b.drop 4 ≠ [] := fun h => by simp [h, packWords] at hj'
    simp only [packWords_of_ne_nil hb, List.getElem_cons_succ, ih hj' hb', List.getD_eq_getElem?_getD,
      List.getElem?_drop]
    congr 2
    omega

/-! ## Consecutive stores -/

/-- The stores of consecutive words of a buffer, from word `k` on. -/
def storeWords {cap : Nat} (b : Vector Byte cap) (k : Nat) : List Word → Vector Byte cap
  | [] => b
  | w :: ws => storeWords (storeWord b k w) (k + 1) ws

@[simp] theorem storeWords_cons {cap : Nat} (b : Vector Byte cap) (k : Nat) (w : Word) (ws : List Word) :
    storeWords b k (w :: ws) = storeWords (storeWord b k w) (k + 1) ws := rfl

theorem storeWords_before {cap : Nat} (b : Vector Byte cap) {k i : Nat} (ws : List Word) (hi : i < cap)
    (hk : i / 4 < k) : (storeWords b k ws)[i] = b[i] := by
  induction ws generalizing b k with
  | nil => rfl
  | cons w ws ih => rw [storeWords_cons, ih _ (by omega), storeWord_getElem _ _ _ hi, if_neg (by omega)]

theorem storeWords_getElem {cap : Nat} (b : Vector Byte cap) {k i j : Nat} {ws : List Word} (hi : i < cap)
    (hj : j < ws.length) (hk : i / 4 = k + j) :
    (storeWords b k ws)[i] = ws[j].extractLsb' (24 - 8 * (i % 4)) 8 := by
  induction ws generalizing b k j with
  | nil => cases hj
  | cons w ws ih =>
    rw [storeWords_cons]
    cases j with
    | zero =>
      rw [storeWords_before _ _ hi (by omega), storeWord_getElem _ _ _ hi, if_pos (by omega), List.getElem_cons_zero]
    | succ j => rw [ih _ (by simpa using hj) (by omega), List.getElem_cons_succ]

/-- A string's packed words, stored from word 0 on, are the string's bytes in the buffer. -/
theorem firstBytes_storeWords {cap : Nat} (key : Vector Byte cap) {b : List Byte} (hb : b.length ≤ cap) :
    firstBytes (storeWords key 0 (packWords b)) b.length = b := by
  have hbyte (i : Fin cap) (hi : i.val < b.length) : (storeWords key 0 (packWords b))[i] = (padTo cap b)[i] := by
    have hj : i.val / 4 < (packWords b).length := by rw [packWords_length]; omega
    rw [Fin.getElem_fin, storeWords_getElem key i.isLt hj (Nat.zero_add _).symm,
      packWords_byte hj (Nat.mod_lt _ (by decide)), Nat.div_add_mod, Fin.getElem_fin, padTo_getElem]
  rw [firstBytes_congr hbyte, firstBytes_padTo hb]

/-! ## The run of the lines -/

theorem run_succ {n : Nat} {s t : State} (h : step s = .next t) :
    Host.Core.run core (n + 1) s = Host.Core.run core n t := by
  simp only [Host.Core.run, core, h]

/-- The state in which one host runs alone and no choice of the scheduler is listed (log 5). -/
def State.solo (e : Engine) (h : HostAgent) : State := ⟨e, [h], []⟩

@[simp] theorem State.solo_eng (e : Engine) (h : HostAgent) : (State.solo e h).eng = e := rfl
@[simp] theorem State.solo_hosts (e : Engine) (h : HostAgent) : (State.solo e h).hosts = [h] := rfl

/-- On an idle engine the default turn is the one host's next line. -/
theorem step_solo {e e' : Engine} {h h' : HostAgent} {line : HostLine} (hp : e.pend = none)
    (hl : h.current = some line) (hr : h.runLine e line = .next (h', e')) :
    step (.solo e h) = .next (.solo e' h') := by
  have hready : firstReady [h] = 0 := by simp [firstReady, hl]
  have hturn : defaultTurn (.solo e h) = .host 0 := by
    simp only [defaultTurn, State.solo_eng, State.solo_hosts, Engine.busy_eq_false.2 hp, hready]
    rfl
  have hhost : hostTurn 0 (.solo e h) = .next (.solo e' h') := by
    simp only [hostTurn, State.solo_hosts, List.getElem?_cons_zero, hl, State.solo_eng, hr]
    rfl
  simp only [step, popTurn_nil (s := .solo e h) rfl, hturn, hhost]

/-- The address of a literal index inside the window. -/
theorem withAddress_lit (h : HostAgent) {r : Reg} {k : Nat} (go : Nat → LineResult) (ha : r.offset + 4 * k < 0x2000) :
    h.withAddress r (.lit k) 4 go = go (r.offset + 4 * k) := by
  have hrange : (0 : Int) ≤ r.offset + 4 * k ∧ (r.offset + 4 * k : Int) < Config.windowBytes := by
    simp only [Config.windowBytes]
    omega
  have htoNat : (r.offset + 4 * k : Int).toNat = r.offset + 4 * k := by omega
  rw [HostAgent.withAddress, if_neg (by decide)]
  simp only [HostAgent.withValue, if_pos hrange, htoNat]

/-- A WR line whose index and value are literals is one MemWrite. -/
theorem runLine_wr_lit (h : HostAgent) (e : Engine) {r : Reg} {k : Nat} (v : Int) (ha : r.offset + 4 * k < 0x2000) :
    h.runLine e (.wr r (.lit k) 4 (.lit v)) =
      .next (h.advance, e.memWrite (r.offset + 4 * k) (BitVec.ofInt 32 v)) := by
  rw [runLine_wr, withAddress_lit _ _ ha]
  rfl

/-- The one host's WR line on an idle engine stores. -/
theorem step_solo_wr {e : Engine} {h : HostAgent} {r : Reg} {k : Nat} {v : Int} {t : Target} (hp : e.pend = none)
    (hl : h.current = some (.wr r (.lit k) 4 (.lit v))) (ha : r.offset + 4 * k < 0x2000)
    (ht : targetOf (wordOffset (r.offset + 4 * k)) = t) (hstatus : t ≠ .status) :
    step (.solo e h) = .next (.solo (e.store t (BitVec.ofInt 32 v)) h.advance) := by
  rw [← memWrite_idle _ hp ht hstatus]
  exact step_solo hp hl (runLine_wr_lit h e v ha)

theorem HostAgent.current_of_drop {h : HostAgent} {line : HostLine} {rest : List HostLine}
    (hd : h.prog.drop h.line = line :: rest) : h.current = some line := by
  rw [current, ← List.head?_drop, hd, List.head?_cons]

theorem HostAgent.advance_drop {h : HostAgent} {line : HostLine} {rest : List HostLine}
    (hd : h.prog.drop h.line = line :: rest) : h.advance.prog.drop h.advance.line = rest := by
  rw [advance, ← List.drop_drop, hd, List.drop_one, List.tail_cons]

theorem wrWords_length (r : Reg) (k : Nat) (ws : List Word) : (wrWords r k ws).length = ws.length := by
  induction ws generalizing k with
  | nil => rfl
  | cons w ws ih => rw [wrWords, List.length_cons, ih, List.length_cons]

/-- The lines that write consecutive words of KEY store them, and the run goes on from there. -/
theorem run_wrWords_key {e : Engine} {h : HostAgent} {k n : Nat} {ws : List Word} {rest : List HostLine}
    (hp : e.pend = none) (hd : h.prog.drop h.line = wrWords .key k ws ++ rest) (hk : k + ws.length ≤ 18) :
    ∃ h' : HostAgent, h'.prog.drop h'.line = rest ∧ Host.Core.run core (ws.length + n) (.solo e h) =
      Host.Core.run core n (.solo { e with key := storeWords e.key k ws } h') := by
  induction ws generalizing e h k with
  | nil => exact ⟨h, hd, by rw [List.length_nil, Nat.zero_add]; rfl⟩
  | cons w ws ih =>
    rw [List.length_cons] at hk
    obtain ⟨hkey, -⟩ := targetOf_wordRows
    have hstep : step (.solo e h) = .next (.solo { e with key := storeWord e.key k w } h.advance) := by
      have hs := step_solo_wr hp (HostAgent.current_of_drop hd) (by simp only [Reg.offset]; omega)
        (hkey k (by omega)) nofun
      rwa [BitVec.ofInt_natCast, BitVec.ofNat_toNat, BitVec.setWidth_eq] at hs
    obtain ⟨h', hd', hr⟩ := ih (e := { e with key := storeWord e.key k w }) hp (HostAgent.advance_drop hd) (by omega)
    refine ⟨h', hd', ?_⟩
    rw [List.length_cons, Nat.add_right_comm, run_succ hstep]
    exact hr

/-- The lines of LOADKEY store the packed string in KEY and its length in KEY_LEN. -/
theorem run_loadKey {e : Engine} {b : List Byte} (env : HostEnv) (hb : b.length ≤ 72) (hp : e.pend = none) :
    ∃ h : HostAgent, Host.Core.run core (loadKey b).length (.solo e ⟨loadKey b, 0, env⟩) =
      .next (.solo { e with key := storeWords e.key 0 (packWords b), keyLen := BitVec.ofNat 8 b.length } h) := by
  have hlen : (loadKey b).length = (packWords b).length + 1 := by
    rw [loadKey, List.length_append, wrWords_length, List.length_singleton]
  have hws : 0 + (packWords b).length ≤ 18 := by rw [packWords_length]; omega
  obtain ⟨h, hd, hr⟩ := run_wrWords_key (n := 1) (h := ⟨loadKey b, 0, env⟩) hp rfl hws
  have hs := step_solo_wr (e := { e with key := storeWords e.key 0 (packWords b) }) hp (HostAgent.current_of_drop hd)
    (by decide) (t := .keyLen) rfl nofun
  refine ⟨h.advance, ?_⟩
  rw [hlen, hr, run_succ hs, BitVec.ofInt_natCast]
  simp only [Engine.store, BitVec.setWidth_ofNat_of_le (show 8 ≤ 32 by decide)]
  rfl

/-- Settles O56: what the lines store reads back as the string. -/
theorem loadKeyLoadsThePassword : Obligations.LoadKeyLoadsThePassword := by
  rintro ⟨e, hosts, turns⟩ b env hb hp rfl rfl
  obtain ⟨h, hr⟩ := run_loadKey env hb hp
  refine ⟨_, hr, ?_, hp, rfl, rfl⟩
  have hl : (BitVec.ofNat 8 b.length).toNat = b.length := by
    rw [BitVec.toNat_ofNat]
    omega
  calc firstBytes (storeWords e.key 0 (packWords b)) (BitVec.ofNat 8 b.length).toNat
      = firstBytes (storeWords e.key 0 (packWords b)) b.length := by rw [hl]
    _ = b := firstBytes_storeWords e.key hb

end Sys2Proof.Machine
end

section
/-! PROOF. The Blowfish engine and the BF commands (40_blowfish.md R140 to R142, R150 to R152). -/

namespace Sys2Proof.Machine

/-! ## F, the round and Encrypt -/

/-- F reads each box at one byte of its word, the most significant byte first (R140). -/
theorem CipherState.f_eq (c : CipherState) (x : Word) : c.f x =
    (((c.s[0][(x.extractLsb' 24 8).toNat]'(by omega) + c.s[1][(x.extractLsb' 16 8).toNat]'(by omega)) ^^^
      c.s[2][(x.extractLsb' 8 8).toNat]'(by omega)) + c.s[3][(x.extractLsb' 0 8).toNat]'(by omega)) := rfl

theorem CipherState.round_eq (c : CipherState) (i : Fin 16) (l r : Word) :
    c.round i (l, r) = (r ^^^ c.f (l ^^^ c.p[i.val]), l ^^^ c.p[i.val]) := rfl

/-- Encrypt by the halves its rounds leave (R142): the half-swap undone, then the final subkey pair. -/
theorem CipherState.encrypt_of_rounds {c : CipherState} {l r : Nat → Word}
    (h : ∀ i : Fin 16, c.round i (l i.val, r i.val) = (l (i.val + 1), r (i.val + 1))) :
    c.encrypt (l 0, r 0) = (r 16 ^^^ c.p[17], l 16 ^^^ c.p[16]) := by
  have hfold := foldl_finRange_eq_seq (fun x i => c.round i x) (fun k => (l k, r k)) h
  exact congrArg (fun x : Word × Word => (x.2 ^^^ c.p[17], x.1 ^^^ c.p[16])) hfold

/-! ## BF_ENCRYPT -/

theorem exec_bfEncrypt (s : State) : exec .bfEncrypt s = complete s (bfEncrypt s.eng) := rfl

theorem bfEncrypt_valid {e : Engine} (hv : e.stateValid = true) : bfEncrypt e =
    .ok { e with dataL := (e.cipher.encrypt (e.dataL, e.dataR)).1, dataR := (e.cipher.encrypt (e.dataL, e.dataR)).2 } :=
  if_neg (by simp [hv])

theorem bfEncrypt_invalid {e : Engine} (hv : e.stateValid = false) : bfEncrypt e = .error .stateNotInitialized :=
  if_pos hv

/-- Settles O26: the sequences are the halves the 16 rounds of Encrypt leave. -/
theorem bfEncryptRunsSixteenRounds : Obligations.BfEncryptRunsSixteenRounds := by
  intro s l r hl hr hseq
  have hround : ∀ i : Fin 16, s.eng.cipher.round i (l i.val, r i.val) = (l (i.val + 1), r (i.val + 1)) := by
    intro i
    obtain ⟨x, rfl, hright, hleft⟩ := hseq i
    rw [CipherState.round_eq, CipherState.f_eq, hright, hleft]
  have hencrypt := CipherState.encrypt_of_rounds hround
  rw [hl, hr] at hencrypt
  rw [exec_bfEncrypt]
  cases hv : s.eng.stateValid with
  | true => rw [bfEncrypt_valid hv, hencrypt]; rfl
  | false => rw [bfEncrypt_invalid hv]; rfl

/-! ## BF_INIT and the seed's tables -/

theorem exec_bfInit (s : State) : exec .bfInit s = .next { s with eng := (s.eng.withCipher seed true).finish .none } :=
  rfl

/-- The XOR and the sum modulo 2^32 of a table (11_seed_tables.md R61 to R66). -/
def CheckValues (words : List Word) (x sum : Word) : Prop :=
  words.foldl (fun a w => a ^^^ w) 0#32 = x ∧ words.foldl (fun a w => a + w) 0#32 = sum

theorem foldl_xor_append (a b : List Word) : (a ++ b).foldl (fun a w => a ^^^ w) 0#32 =
    a.foldl (fun a w => a ^^^ w) 0#32 ^^^ b.foldl (fun a w => a ^^^ w) 0#32 := by
  simp only [List.foldl_append, ← List.foldl_assoc, BitVec.xor_zero]

theorem foldl_add_append (a b : List Word) : (a ++ b).foldl (fun a w => a + w) 0#32 =
    a.foldl (fun a w => a + w) 0#32 + b.foldl (fun a w => a + w) 0#32 := by
  simp only [List.foldl_append, ← List.foldl_assoc, BitVec.add_zero]

/-- Two tables one after the other have the XOR of the XORs and the sum of the sums. -/
theorem CheckValues.append {a b : List Word} {x y u v : Word} (ha : CheckValues a x u) (hb : CheckValues b y v) :
    CheckValues (a ++ b) (x ^^^ y) (u + v) := by
  obtain ⟨rfl, rfl⟩ := ha
  obtain ⟨rfl, rfl⟩ := hb
  exact ⟨foldl_xor_append a b, foldl_add_append a b⟩

theorem checkValues_pInit : CheckValues pInit.toList 0xB73AD7EA#32 0x8E4D14CC#32 :=
  ⟨by decide, by decide⟩

/-- Each box is cut at its eight pieces, so that each fold to evaluate is a short one. -/
theorem checkValues_boxes : CheckValues sInit0.toList 0x4EB4DB7F#32 0x4B745115#32 ∧
    CheckValues sInit1.toList 0xC727E122#32 0x72FF37B2#32 ∧ CheckValues sInit2.toList 0x462A5D01#32 0x2AC02B91#32 ∧
    CheckValues sInit3.toList 0x1779E2BC#32 0xF43E3A88#32 := by
  delta CheckValues sInit0 sInit1 sInit2 sInit3
  simp only [Vector.toList_mk, foldl_xor_append, foldl_add_append]
  decide

/-- The check values of all 1042 words are those of the five tables put together (R66). -/
theorem checkValues_seedWords :
    CheckValues (pInit.toList ++ sInit0.toList ++ sInit1.toList ++ sInit2.toList ++ sInit3.toList)
      0x6FFA520A#32 0x6BBF03AC#32 := by
  obtain ⟨h0, h1, h2, h3⟩ := checkValues_boxes
  exact (((checkValues_pInit.append h0).append h1).append h2).append h3

theorem memRead_pWord {e : Engine} (hp : e.pend = none) (i : Fin 18) :
    e.memRead (0x0400 + 4 * i.val) = (if e.stateValid then e.cipher.p[i] else 0#32, e) := by
  obtain ⟨-, -, -, -, -, -, hpw, -⟩ := targetOf_wordRows
  rw [memRead_idle hp (hpw i i.isLt), load_pWord]

theorem memRead_sWord {e : Engine} (hp : e.pend = none) (b : Fin 4) (j : Fin 256) :
    e.memRead (0x1000 + 0x400 * b.val + 4 * j.val) = (if e.stateValid then (e.cipher.s[b])[j] else 0#32, e) := by
  obtain ⟨-, -, -, -, -, -, -, hsw⟩ := targetOf_wordRows
  rw [memRead_idle hp (hsw b b.isLt j j.isLt), load_sWord]

/-- The last word of a box is the last word of its last piece. -/
theorem lastWord_of_pieces {a b : List Word} {box : Vector Word 256} (hbox : box.toList = a ++ b) (hb : b.length = 32) :
    box[255] = b[31] := by
  have ha : a.length = 224 := by
    have hlen : box.toList.length = 256 := Vector.length_toList
    rw [hbox, List.length_append] at hlen
    omega
  have hget : box[255] = box.toList[255]'(by simp) := by simp
  simp only [hget, hbox, List.getElem_append_right (show a.length ≤ 255 by omega), ha]

/-- Over the seed, the windows of P and S begin and end with the first and the last word of each table (R61 to R65). -/
theorem memRead_seed_ends {e : Engine} (hp : e.pend = none) (hv : e.stateValid = true) (hc : e.cipher = seed)
    (off : Nat) (w : Word) (hm : (off, w) ∈ [(0x0400, 0x243F6A88#32), (0x0444, 0x8979FB1B#32),
      (0x1000, 0xD1310BA6#32), (0x13FC, 0x6E85076A#32), (0x1400, 0x4B7A70E9#32), (0x17FC, 0xDB83ADF7#32),
      (0x1800, 0xE93D5A68#32), (0x1BFC, 0x406000E0#32), (0x1C00, 0x3A39CE37#32), (0x1FFC, 0x3AC372E6#32)]) :
    (e.memRead off).1 = w := by
  have hpw (i : Fin 18) : (e.memRead (0x0400 + 4 * i.val)).1 = seed.p[i] := by rw [memRead_pWord hp, if_pos hv, hc]
  have hsw (b : Fin 4) (j : Fin 256) : (e.memRead (0x1000 + 0x400 * b.val + 4 * j.val)).1 = (seed.s[b])[j] := by
    rw [memRead_sWord hp, if_pos hv, hc]
  simp only [List.mem_cons, Prod.mk.injEq, List.not_mem_nil, or_false] at hm
  obtain ⟨rfl, rfl⟩ | ⟨rfl, rfl⟩ | ⟨rfl, rfl⟩ | ⟨rfl, rfl⟩ | ⟨rfl, rfl⟩ | ⟨rfl, rfl⟩ | ⟨rfl, rfl⟩ | ⟨rfl, rfl⟩ |
    ⟨rfl, rfl⟩ | ⟨rfl, rfl⟩ := hm
  · exact hpw 0
  · exact hpw 17
  · exact hsw 0 0
  · exact (hsw 0 255).trans (lastWord_of_pieces (box := sInit0) (b := sInit0Part7) rfl rfl)
  · exact hsw 1 0
  · exact (hsw 1 255).trans (lastWord_of_pieces (box := sInit1) (b := sInit1Part7) rfl rfl)
  · exact hsw 2 0
  · exact (hsw 2 255).trans (lastWord_of_pieces (box := sInit2) (b := sInit2Part7) rfl rfl)
  · exact hsw 3 0
  · exact (hsw 3 255).trans (lastWord_of_pieces (box := sInit3) (b := sInit3Part7) rfl rfl)

/-- Settles O25: the seed's own check values, table by table, and its words at the ends of the windows. -/
theorem bfInitLoadsTheSeed : Obligations.BfInitLoadsTheSeed := by
  obtain ⟨h0, h1, h2, h3⟩ := checkValues_boxes
  refine fun s => ⟨_, exec_bfInit s, rfl, fun words x sum hm => ?_, memRead_seed_ends rfl rfl rfl⟩
  simp only [List.mem_cons, Prod.mk.injEq, List.not_mem_nil, or_false] at hm
  obtain ⟨rfl, rfl, rfl⟩ | ⟨rfl, rfl, rfl⟩ | ⟨rfl, rfl, rfl⟩ | ⟨rfl, rfl, rfl⟩ | ⟨rfl, rfl, rfl⟩ | ⟨rfl, rfl, rfl⟩ := hm
  · exact checkValues_pInit
  · exact h0
  · exact h1
  · exact h2
  · exact h3
  · exact checkValues_seedWords

/-! ## BF_DISCARD -/

theorem exec_bfDiscard (s : State) : exec .bfDiscard s = .next { s with eng := s.eng.discard.finish .none } := rfl

/-- With STATE_VALID 0 every address of the P and S windows reads 0 (10_state.md R24). -/
theorem memRead_stateWindows_invalid {e : Engine} {off : Nat} (hp : e.pend = none) (hv : e.stateValid = false)
    (ho : 0x0400 ≤ off ∧ off ≤ 0x0447 ∨ 0x1000 ≤ off ∧ off ≤ 0x1FFF) : e.memRead off = (0#32, e) := by
  obtain ho | ho := ho
  · have hword : wordOffset off = wordOffset (0x0400 + 4 * ((off - 0x0400) / 4)) := by
      rw [wordOffset_eq, wordOffset_eq]; omega
    rw [memRead_congr e hword, memRead_pWord hp ⟨_, by omega⟩, hv]
    rfl
  · have hword : wordOffset off =
        wordOffset (0x1000 + 0x400 * ((off - 0x1000) / 0x400) + 4 * ((off - 0x1000) % 0x400 / 4)) := by
      rw [wordOffset_eq, wordOffset_eq]; omega
    rw [memRead_congr e hword, memRead_sWord hp ⟨_, by omega⟩ ⟨_, by omega⟩, hv]
    rfl

theorem CipherState.zero_p (i : Fin 18) : CipherState.zero.p[i] = 0#32 := Vector.getElem_replicate i.isLt

theorem CipherState.zero_s (b : Fin 4) (j : Fin 256) : (CipherState.zero.s[b])[j] = 0#32 := by
  have hbox : CipherState.zero.s[b] = Vector.replicate 256 0#32 := Vector.getElem_replicate b.isLt
  rw [hbox]
  exact Vector.getElem_replicate j.isLt

/-- Settles O27: what is left is the zero cipher state with STATE_VALID 0. -/
theorem bfDiscardClearsTheCipherState : Obligations.BfDiscardClearsTheCipherState := fun s =>
  ⟨_, exec_bfDiscard s, rfl, CipherState.zero_p, CipherState.zero_s, fun _ => memRead_stateWindows_invalid rfl rfl⟩

end Sys2Proof.Machine
end

section
/-! PROOF. ExpandKey (41_eks_schedule.md R170 to R174, R259).

Compiled as one text with the model's tests, this part waits for them: each test the kernel checks holds a thread and its
stack, and proofs elaborated beside them can exceed the compile's memory limit. So it is elaborated in order
(`Elab.async`), after a pause in which the work already begun finds its threads. -/

namespace Sys2Proof.Machine

set_option Elab.async false

/-! ## Words of P and S -/

set_option linter.unusedTactic false in
theorem CipherState.getP_eq (c : CipherState) (i : Fin 18) : c.getP i = c.p[i] := by
  sleep 8000
  rfl

theorem CipherState.setP_p (c : CipherState) (i j : Fin 18) (v : Word) :
    (c.setP i v).p[j] = if i = j then v else c.p[j] := c.getP_setP i j v

theorem CipherState.setS_s (c : CipherState) (b b' : Fin 4) (j j' : Fin 256) (v : Word) :
    ((c.setS b j v).s[b'])[j'] = if b = b' ∧ j = j' then v else (c.s[b'])[j'] := c.getS_setS b b' j j' v

/-! ## Phase 1: the key into P -/

/-- Word `n` of the cyclic stream over `d` (R170): its bytes 4n to 4n+3, `d` wrapping. -/
def streamWordAt (d : List Byte) (n : Nat) : Word :=
  be32 (d.getD ((4 * n) % d.length) 0) (d.getD ((4 * n + 1) % d.length) 0) (d.getD ((4 * n + 2) % d.length) 0)
    (d.getD ((4 * n + 3) % d.length) 0)

/-- Where word `n` begins, StreamWord reads it and stops at the next one. -/
theorem streamWord_at (d : List Byte) (n : Nat) :
    streamWord d (4 * n % d.length) = (streamWordAt d n, 4 * (n + 1) % d.length) := by
  simp only [streamWord, streamWordAt, Nat.mod_add_mod, Nat.mod_mod, Nat.mul_add, Nat.add_zero, Nat.mul_one]

/-- The cipher state after the first `n` turns of phase 1. -/
def keyedTo (key : List Byte) (c : CipherState) (n : Nat) : CipherState :=
  ⟨Vector.ofFn fun i : Fin 18 => if i.val < n then c.p[i] ^^^ streamWordAt key i else c.p[i], c.s⟩

theorem keyedTo_p (key : List Byte) (c : CipherState) (n : Nat) (i : Fin 18) :
    (keyedTo key c n).p[i] = if i.val < n then c.p[i] ^^^ streamWordAt key i else c.p[i] :=
  Vector.getElem_ofFn i.isLt

theorem keyedTo_s (key : List Byte) (c : CipherState) (n : Nat) : (keyedTo key c n).s = c.s := by
  simp only [keyedTo]

theorem keyedTo_zero (key : List Byte) (c : CipherState) : keyedTo key c 0 = c :=
  CipherState.ext_words (fun i => by rw [keyedTo_p, if_neg (Nat.not_lt_zero _)]) fun _ _ => by rw [keyedTo_s]

/-- Turn `i` of phase 1 XORs word `i` into P[i]. -/
theorem keyedTo_succ (key : List Byte) (c : CipherState) (i : Fin 18) :
    (keyedTo key c i).setP i ((keyedTo key c i).getP i ^^^ streamWordAt key i) = keyedTo key c (i + 1) := by
  refine CipherState.ext_words (fun j => ?_) fun _ _ => by rw [CipherState.setP_s, keyedTo_s, keyedTo_s]
  rw [CipherState.setP_p, CipherState.getP_eq]
  by_cases hij : i = j
  · subst hij
    rw [if_pos rfl, keyedTo_p, keyedTo_p, if_neg (Nat.lt_irrefl _), if_pos (Nat.lt_succ_self _)]
  · have hlt : j.val < i.val + 1 ↔ j.val < i.val := by omega
    simp only [if_neg hij, keyedTo_p, hlt]

theorem keyIntoP_eq_keyedTo (key : List Byte) (c : CipherState) : keyIntoP key c = keyedTo key c 18 := by
  have hstart : (c, 0) = (keyedTo key c 0, 4 * 0 % key.length) := by rw [keyedTo_zero, Nat.mul_zero, Nat.zero_mod]
  unfold keyIntoP
  rw [hstart, foldl_finRange_eq_seq _ (fun n => (keyedTo key c n, 4 * n % key.length))]
  exact fun i => by simp only [streamWord_at, keyedTo_succ]

theorem keyIntoP_p (key : List Byte) (c : CipherState) (i : Fin 18) :
    (keyIntoP key c).p[i] = c.p[i] ^^^ streamWordAt key i := by
  rw [keyIntoP_eq_keyedTo, keyedTo_p, if_pos i.isLt]

theorem keyIntoP_s (key : List Byte) (c : CipherState) : (keyIntoP key c).s = c.s := by
  rw [keyIntoP_eq_keyedTo, keyedTo_s]

/-- Settles O29: the words mixed in are those of the key's cyclic stream. -/
theorem keyIsMixedCyclicallyIntoP : Obligations.KeyIsMixedCyclicallyIntoP :=
  fun key c _ => ⟨keyIntoP_p key c, keyIntoP_s key c⟩

/-! ## Keys with one stream -/

theorem streamWordAt_congr {d1 d2 : List Byte} {n : Nat}
    (h : ∀ i < 4 * n + 4, d1.getD (i % d1.length) 0 = d2.getD (i % d2.length) 0) :
    streamWordAt d1 n = streamWordAt d2 n := by
  unfold streamWordAt
  rw [h (4 * n) (by omega), h (4 * n + 1) (by omega), h (4 * n + 2) (by omega), h (4 * n + 3) (by omega)]

/-- Settles O31: phase 1, which alone reads the key, reads 72 bytes of its stream. -/
theorem equalKeyStreamsGiveEqualSchedules : Obligations.EqualKeyStreamsGiveEqualSchedules := by
  intro salt k1 k2 c _ _ h
  have hkey : keyIntoP k1 c = keyIntoP k2 c := by
    refine CipherState.ext_words (fun i => ?_) fun _ _ => by rw [keyIntoP_s, keyIntoP_s]
    rw [keyIntoP_p, keyIntoP_p, streamWordAt_congr fun j hj => h j (by omega)]
  rw [expandKey, hkey, expandKey]

/-! ## Phase 2: the chained block -/

/-- Word `n` that phase 2 mixes into the block: of the salt's cyclic stream, and zero with the empty salt (R172, R173). -/
def saltWordAt (salt : Option (Vector Byte 16)) (n : Nat) : Word := salt.elim 0#32 fun d => streamWordAt d.toList n

/-- The position in the salt stream after `k` steps. -/
def saltPos (salt : Option (Vector Byte 16)) (k : Nat) : Nat := salt.elim 0 fun _ => 4 * (2 * k) % 16

/-- Each step mixes the next two words of the salt's stream. -/
theorem mixSalt_saltPos (salt : Option (Vector Byte 16)) (c : CipherState) (l r : Word) (k : Nat) :
    Running.mixSalt (salt.map Vector.toList) ⟨c, l, r, saltPos salt k⟩ =
      ⟨c, l ^^^ saltWordAt salt (2 * k), r ^^^ saltWordAt salt (2 * k + 1), saltPos salt (k + 1)⟩ := by
  cases salt with
  | none => simp [Running.mixSalt, saltWordAt, saltPos]
  | some d =>
    have hread (n : Nat) : streamWord d.toList (4 * n % 16) = (streamWordAt d.toList n, 4 * (n + 1) % 16) := by
      simpa only [Vector.length_toList] using streamWord_at d.toList n
    simp only [Running.mixSalt, Option.map_some, saltPos, saltWordAt, Option.elim_some, hread]
    rfl

/-- Phase 2 passes through every sequence that starts with the block (0, 0) and that its steps move on by one: nine that
write to P, then 128 that write to each box in turn (R172). -/
theorem overwrite_eq_seq {salt : Option (List Byte)} {c : CipherState} {y : Nat → Running} (h0 : y 0 = ⟨c, 0, 0, 0⟩)
    (hp : ∀ k : Fin 9, Running.stepP salt (y k) k = y (k + 1))
    (hs : ∀ (b : Fin 4) (m : Fin 128), Running.stepS salt b (y (9 + 128 * b + m)) m = y (9 + 128 * b + m + 1)) :
    overwrite salt c = y 521 := by
  have hbox (b : Fin 4) : (List.finRange 128).foldl (Running.stepS salt b) (y (9 + 128 * b)) = y (9 + 128 * (b + 1)) :=
    foldl_finRange_eq_seq (Running.stepS salt b) (fun m => y (9 + 128 * b + m)) (hs b)
  rw [overwrite, ← h0, foldl_finRange_eq_seq (Running.stepP salt) y hp]
  exact foldl_finRange_eq_seq _ (fun b => y (9 + 128 * b)) hbox

section
variable {salt : Option (Vector Byte 16)} {x : Nat → CipherState} {l r : Nat → Word}

/-- The values of phase 2 after `k` steps, of a sequence of cipher states and one of blocks. -/
def runningAt (salt : Option (Vector Byte 16)) (x : Nat → CipherState) (l r : Nat → Word) (k : Nat) : Running :=
  ⟨x k, l k, r k, saltPos salt k⟩

/-- One step: the words mixed in, then Encrypt. -/
theorem step_runningAt {k : Nat} (henc : (l (k + 1), r (k + 1)) =
      (x k).encrypt (l k ^^^ saltWordAt salt (2 * k), r k ^^^ saltWordAt salt (2 * k + 1))) :
    (runningAt salt x l r k).step (salt.map Vector.toList) = { runningAt salt x l r (k + 1) with c := x k } := by
  simp only [runningAt, Running.step, mixSalt_saltPos, ← henc]

/-- A step whose block goes to P. -/
theorem stepP_runningAt (k : Fin 9) (henc : (l (k + 1), r (k + 1)) =
      (x k).encrypt (l k ^^^ saltWordAt salt (2 * k), r k ^^^ saltWordAt salt (2 * k + 1)))
    (hs : (x (k + 1)).s = (x k).s) (hp : ∀ i : Fin 18, (x (k + 1)).p[i] =
      if i.val = 2 * k then l (k + 1) else if i.val = 2 * k + 1 then r (k + 1) else (x k).p[i]) :
    (runningAt salt x l r k).stepP (salt.map Vector.toList) k = runningAt salt x l r (k + 1) := by
  have hwrite : ((x k).setP ⟨2 * k.val, by omega⟩ (l (k + 1))).setP ⟨2 * k.val + 1, by omega⟩ (r (k + 1)) =
      x (k + 1) := by
    refine CipherState.ext_words (fun i => ?_) fun _ _ => by rw [CipherState.setP_s, CipherState.setP_s, hs]
    simp only [CipherState.setP_p, hp, Fin.ext_iff, eq_comm (b := i.val)]
    apply ite_ite_comm
    omega
  rw [Running.stepP, step_runningAt henc]
  simp only [runningAt, hwrite]

/-- A step whose block goes to box `b`. -/
theorem stepS_runningAt (b : Fin 4) (m : Fin 128) {k : Nat} (henc : (l (k + 1), r (k + 1)) =
      (x k).encrypt (l k ^^^ saltWordAt salt (2 * k), r k ^^^ saltWordAt salt (2 * k + 1)))
    (hp : (x (k + 1)).p = (x k).p) (hs : ∀ (b' : Fin 4) (j : Fin 256), ((x (k + 1)).s[b'])[j] =
      if b' = b ∧ j.val = 2 * m.val then l (k + 1)
      else if b' = b ∧ j.val = 2 * m.val + 1 then r (k + 1) else ((x k).s[b'])[j]) :
    (runningAt salt x l r k).stepS (salt.map Vector.toList) b m = runningAt salt x l r (k + 1) := by
  have hwrite : ((x k).setS b ⟨2 * m.val, by omega⟩ (l (k + 1))).setS b ⟨2 * m.val + 1, by omega⟩ (r (k + 1)) =
      x (k + 1) := by
    refine CipherState.ext_words (fun _ => by rw [CipherState.setS_p, CipherState.setS_p, hp]) fun b' j => ?_
    simp only [CipherState.setS_s, hs, Fin.ext_iff, eq_comm (b := j.val), eq_comm (b := b'.val)]
    apply ite_ite_comm
    omega
  rw [Running.stepS, step_runningAt henc]
  simp only [runningAt, hwrite]

end

/-- The stream over a 16-byte salt is its four words in turn. -/
theorem streamWordAt_salt (d : Vector Byte 16) (n : Nat) : streamWordAt d.toList n =
    d[4 * (n % 4)] ++ d[4 * (n % 4) + 1] ++ d[4 * (n % 4) + 2] ++ d[4 * (n % 4) + 3] := by
  have hbyte (m : Nat) (hm : m < 4) : d.toList.getD ((4 * n + m) % d.toList.length) 0 = d[4 * (n % 4) + m] := by
    have hi : (4 * n + m) % d.toList.length = 4 * (n % 4) + m := by
      rw [Vector.length_toList]
      omega
    rw [hi]
    exact byteAt_eq d (by omega)
  rw [streamWordAt, hbyte 1 (by decide), hbyte 2 (by decide), hbyte 3 (by decide)]
  exact congrArg (be32 · _ _ _) (hbyte 0 (by decide))

/-- Settles O57: the sequence starts where phase 1 ends, its steps mix in the words of the salt's stream, and phase 2
passes through it. -/
theorem expandKeyChainsTheRunningBlock : Obligations.ExpandKeyChainsTheRunningBlock := by
  intro salt key c x l r w _ hp0 hs0 hl hr hnone hsome henc hp hs
  have hkey : keyIntoP key c = x 0 := by
    refine CipherState.ext_words (fun i => ?_) fun _ _ => by rw [keyIntoP_s, hs0]
    rw [keyIntoP_p, hp0]
    rfl
  obtain rfl : w = saltWordAt salt := by
    funext n
    cases salt with
    | none => exact hnone rfl n
    | some d => exact (hsome d rfl n).trans (streamWordAt_salt d n).symm
  have hstart : runningAt salt x l r 0 = ⟨x 0, 0, 0, 0⟩ := by
    rw [runningAt, hl, hr]
    cases salt <;> rfl
  rw [expandKey, hkey, overwrite_eq_seq hstart (fun k => ?_) fun b m => ?_, runningAt]
  · exact stepP_runningAt k (henc k (by omega)) (hp k k.isLt).1 (hp k k.isLt).2
  · exact stepS_runningAt b m (henc _ (by omega)) (hs b m _ rfl).1 (hs b m _ rfl).2

/-! ## The zero salt -/

theorem streamWord_zero (n p : Nat) : (streamWord (List.replicate n 0#8) p).1 = 0#32 := by
  have hbyte (i : Nat) : (List.replicate n 0#8).getD i 0 = 0#8 := by
    rw [List.getD_eq_getElem?_getD, List.getElem?_replicate]
    split <;> rfl
  simp only [streamWord, hbyte]
  rfl

/-- The values of phase 2 with the salt's position set back: all that a step with the empty salt reads or writes. -/
def Running.atStart (x : Running) : Running := { x with sp := 0 }

/-- Zero words mixed into the block move the salt's position only. -/
theorem step_zeroSalt (n : Nat) (x : Running) :
    x.atStart.step none = (x.step (some (List.replicate n 0#8))).atStart := by
  simp only [Running.step, Running.mixSalt, Running.atStart, streamWord_zero, BitVec.xor_zero]

theorem stepP_zeroSalt (n : Nat) (x : Running) (k : Fin 9) :
    x.atStart.stepP none k = (x.stepP (some (List.replicate n 0#8)) k).atStart := by
  rw [Running.stepP, step_zeroSalt n]
  rfl

theorem stepS_zeroSalt (n : Nat) (b : Fin 4) (x : Running) (k : Fin 128) :
    x.atStart.stepS none b k = (x.stepS (some (List.replicate n 0#8)) b k).atStart := by
  rw [Running.stepS, step_zeroSalt n]
  rfl

theorem overwrite_zeroSalt (n : Nat) (c : CipherState) :
    overwrite none c = (overwrite (some (List.replicate n 0#8)) c).atStart := by
  have hp : (List.finRange 9).foldl (Running.stepP none) ⟨c, 0, 0, 0⟩ =
      ((List.finRange 9).foldl (Running.stepP (some (List.replicate n 0#8))) ⟨c, 0, 0, 0⟩).atStart :=
    List.foldl_hom Running.atStart (init := ⟨c, 0, 0, 0⟩) (stepP_zeroSalt n)
  have hbox (x : Running) (b : Fin 4) : (List.finRange 128).foldl (Running.stepS none b) x.atStart =
      ((List.finRange 128).foldl (Running.stepS (some (List.replicate n 0#8)) b) x).atStart :=
    List.foldl_hom Running.atStart (stepS_zeroSalt n b)
  unfold overwrite
  rw [hp]
  exact List.foldl_hom Running.atStart hbox

theorem expandKey_zeroSalt (n : Nat) (key : List Byte) (c : CipherState) :
    expandKey none key c = expandKey (some (List.replicate n 0#8)) key c := by
  rw [expandKey, overwrite_zeroSalt n, expandKey, Running.atStart]

/-- Settles O30: the two commands have the same checks, and a buffer of zero bytes is the zero salt. -/
theorem zeroSaltIsEmptySalt : Obligations.ZeroSaltIsEmptySalt := by
  refine ⟨expandKey_zeroSalt 16, fun s hs => ?_⟩
  have hsalt : s.eng.salt.toList = List.replicate 16 0#8 := by
    have hv : s.eng.salt = Vector.replicate 16 0#8 :=
      Vector.ext fun i hi => (hs ⟨i, hi⟩).trans (Vector.getElem_replicate hi).symm
    rw [hv, Vector.toList_replicate]
  rw [exec_eq_complete, exec_eq_complete]
  simp only [commandBody, eksExpandSk, eksExpandK, hsalt, expandKey_zeroSalt 16]

end Sys2Proof.Machine
end

section
/-! PROOF. The EKS commands (41_eks_schedule.md R180 to R184). -/

namespace Sys2Proof.Machine

set_option Elab.async false

theorem Engine.keyTooLong_eq_false {e : Engine} : e.keyTooLong = false ↔ e.keyLen.toNat ≤ 72 := by
  simp [keyTooLong]

/-- The state after a command that leaves `c` in P and S and ends without an error. -/
def State.loaded (s : State) (c : CipherState) : State := { s with eng := (s.eng.withCipher c true).finish .none }

/-- The cipher state that EKS_SETUP leaves after `n` turns of its cost loop (R180). -/
def Engine.setupCipher (e : Engine) (n : Nat) : CipherState :=
  iterate (rekey e.pwKey e.salt.toList) n (expandKey (some e.salt.toList) e.pwKey seed)

/-! ## The commands whose checks pass -/

section
variable {s : State}

theorem exec_eksExpandSk_valid (hk : s.eng.keyTooLong = false) (hv : s.eng.stateValid = true) :
    exec .eksExpandSk s = .next (s.loaded (expandKey (some s.eng.salt.toList) s.eng.pwKey s.eng.cipher)) := by
  simp [exec_eq_complete, commandBody, eksExpandSk, hk, hv, State.loaded, Engine.withCipher]

theorem exec_eksExpandK_valid (hk : s.eng.keyTooLong = false) (hv : s.eng.stateValid = true) :
    exec .eksExpandK s = .next (s.loaded (expandKey none s.eng.pwKey s.eng.cipher)) := by
  simp [exec_eq_complete, commandBody, eksExpandK, hk, hv, State.loaded, Engine.withCipher]

theorem exec_eksExpandS_valid (hv : s.eng.stateValid = true) :
    exec .eksExpandS s = .next (s.loaded (expandKey none s.eng.salt.toList s.eng.cipher)) := by
  simp [exec_eq_complete, commandBody, eksExpandS, hv, State.loaded, Engine.withCipher]

end

/-- Settles O32, command by command. -/
theorem expandCommandsExpandTheCurrentState : Obligations.ExpandCommandsExpandTheCurrentState := by
  intro s hv
  have hloaded (c : CipherState) : s.loaded c =
      { s with eng := { s.eng with cipher := c, pend := none, done := true, err := .none } } := by
    simp [State.loaded, Engine.withCipher, Engine.finish, hv]
  refine ⟨fun hk => ⟨?_, ?_⟩, ?_⟩
  · exact (exec_eksExpandSk_valid (Engine.keyTooLong_eq_false.2 hk) hv).trans (congrArg _ (hloaded _))
  · exact (exec_eksExpandK_valid (Engine.keyTooLong_eq_false.2 hk) hv).trans (congrArg _ (hloaded _))
  · exact (exec_eksExpandS_valid hv).trans (congrArg _ (hloaded _))

theorem eksSetup_valid {e : Engine} (hk : e.keyTooLong = false) (hc : costError e.cost = none) :
    eksSetup e = .ok { e.withCipher (e.setupCipher (2 ^ e.cost.toNat)) true with
      costCtr := BitVec.ofNat 32 (2 ^ e.cost.toNat) } := by
  simp [eksSetup, hk, hc, eksSetupState_eq, Engine.setupCipher]

/-- Settles O33: the sequence is the iteration of the re-keying, which EKS_SETUP leaves. -/
theorem eksSetupRunsTheCostLoop : Obligations.EksSetupRunsTheCostLoop := by
  intro s c hk h4 h31 h0 hstep
  have hc : s.eng.setupCipher (2 ^ s.eng.cost.toNat) = c (2 ^ s.eng.cost.toNat) := by
    rw [← iterate_eq_seq (rekey s.eng.pwKey s.eng.salt.toList) c hstep, h0]
    rfl
  rw [exec_eq_complete, commandBody, eksSetup_valid (Engine.keyTooLong_eq_false.2 hk) (costError_none.2 ⟨h4, h31⟩), hc]
  rfl

/-! ## EKS_SETUP by the low-level commands -/

theorem costError_ne_none {cost : Byte} : costError cost ≠ some .none := by
  unfold costError
  split
  · nofun
  · split <;> nofun

theorem eksSetup_error_ne_none {e : Engine} : eksSetup e ≠ .error .none := by
  unfold eksSetup
  split
  · nofun
  · split
    · rintro ⟨⟩
      exact costError_ne_none ‹_›
    · nofun

theorem afterAll_cons {s t : State} {i : Instr} {rest : List Instr} (h : exec i s = .next t) :
    afterAll (i :: rest) s = afterAll rest t := by
  simp [afterAll, afterExec, h]

theorem exec_eksExpandS_loaded (s : State) (c : CipherState) :
    exec .eksExpandS (s.loaded c) = .next (s.loaded (expandKey none s.eng.salt.toList c)) :=
  exec_eksExpandS_valid (s := s.loaded c) rfl

section
variable {s : State} (hk : s.eng.keyTooLong = false)
include hk

theorem exec_eksExpandSk_loaded (c : CipherState) :
    exec .eksExpandSk (s.loaded c) = .next (s.loaded (expandKey (some s.eng.salt.toList) s.eng.pwKey c)) :=
  exec_eksExpandSk_valid (s := s.loaded c) hk rfl

theorem exec_eksExpandK_loaded (c : CipherState) :
    exec .eksExpandK (s.loaded c) = .next (s.loaded (expandKey none s.eng.pwKey c)) :=
  exec_eksExpandK_valid (s := s.loaded c) hk rfl

/-- `n` times EKS_EXPAND_K and EKS_EXPAND_S are `n` turns of the cost loop. -/
theorem afterAll_loopBodies (n : Nat) (c : CipherState) :
    afterAll (List.replicate n [Instr.eksExpandK, .eksExpandS]).flatten (s.loaded c) =
      some (s.loaded (iterate (rekey s.eng.pwKey s.eng.salt.toList) n c)) := by
  induction n generalizing c with
  | zero => rfl
  | succ n ih =>
    rw [List.replicate_succ, List.flatten_cons, List.cons_append, List.cons_append, List.nil_append,
      afterAll_cons (exec_eksExpandK_loaded hk c), afterAll_cons (exec_eksExpandS_loaded s _), ih, iterate_succ, rekey]

theorem afterAll_lowLevelSetup (n : Nat) :
    afterAll (.bfInit :: .eksExpandSk :: (List.replicate n [Instr.eksExpandK, .eksExpandS]).flatten) s =
      some (s.loaded (s.eng.setupCipher n)) := by
  have hinit : exec .bfInit s = .next (s.loaded seed) := exec_bfInit s
  rw [afterAll_cons hinit, afterAll_cons (exec_eksExpandSk_loaded hk seed), afterAll_loopBodies hk, Engine.setupCipher]

end

/-- Settles O34: both ways leave the cost loop's cipher state. -/
theorem setupEqualsTheLowLevelCommands : Obligations.SetupEqualsTheLowLevelCommands := by
  intro s t h herr
  rw [exec_eq_complete] at h
  rcases complete_cases h with ⟨e, he, rfl⟩ | ⟨code, he, rfl⟩
  · obtain ⟨hk, hc, -⟩ := eksSetup_ok he
    obtain rfl := Except.ok.inj ((eksSetup_valid hk hc).symm.trans he)
    exact ⟨_, afterAll_lowLevelSetup hk _, rfl, rfl, rfl, rfl⟩
  · obtain rfl : code = .none := herr
    exact absurd he eksSetup_error_ne_none

end Sys2Proof.Machine
end

section
/-! PROOF. The round trips of the radix-64 codec (42_codec.md R202 to R204). -/

namespace Sys2Proof.Machine

/-! ## Bytes and characters of a group -/

theorem valueIn_bcAlpha_charOf {v : Nat} (hv : v < 64) : valueIn bcAlpha (charOf bcAlpha v) = some v :=
  valueIn_charOf bcAlpha_nodup (bcAlpha_length ▸ hv)

/-- Two values below 64 have the same character only if they are the same. -/
theorem charOf_bcAlpha_inj {v w : Nat} (hv : v < 64) (hw : w < 64) : charOf bcAlpha v = charOf bcAlpha w ↔ v = w := by
  refine ⟨fun h => ?_, congrArg _⟩
  have hval := congrArg (valueIn bcAlpha) h
  rw [valueIn_bcAlpha_charOf hv, valueIn_bcAlpha_charOf hw] at hval
  exact Option.some.inj hval

theorem groupChar_eq {g lo v : Nat} (h : g / 2 ^ lo % 64 = v) : groupChar g lo = charOf bcAlpha v := congrArg _ h

theorem groupByte_eq {g lo : Nat} {b : Byte} (h : g / 2 ^ lo % 256 = b.toNat) : groupByte g lo = b :=
  BitVec.eq_of_toNat_eq ((BitVec.toNat_ofNat ..).trans h)

@[simp] theorem groupByte_toNat (g lo : Nat) : (groupByte g lo).toNat = g / 2 ^ lo % 256 := BitVec.toNat_ofNat ..

theorem bcValues_groupChar_cons {g lo : Nat} {t : List Byte} {vs : List Nat} (h : bcValues t = some vs) :
    bcValues (groupChar g lo :: t) = some (g / 2 ^ lo % 64 :: vs) := by
  have hv : valueIn bcAlpha (groupChar g lo) = some (g / 2 ^ lo % 64) :=
    valueIn_bcAlpha_charOf (Nat.mod_lt _ (by decide))
  simp only [bcValues, hv, h]

/-! ## Decoding an encoding -/

/-- The values of an encoding's characters decode to the bytes: no bit of a group is lost. -/
theorem bcValues_r64Encode (b : List Byte) : ∃ vs, bcValues (r64Encode b) = some vs ∧ decodeGroups vs = b := by
  induction b using r64Encode.induct with
  | case1 => exact ⟨[], rfl, rfl⟩
  | case2 b0 =>
    refine ⟨_, bcValues_groupChar_cons (bcValues_groupChar_cons rfl), ?_⟩
    have h0 := b0.isLt
    rw [decodeGroups, groupByte_eq (b := b0) (by omega)]
  | case3 b0 b1 =>
    refine ⟨_, bcValues_groupChar_cons (bcValues_groupChar_cons (bcValues_groupChar_cons rfl)), ?_⟩
    have h0 := b0.isLt
    have h1 := b1.isLt
    rw [decodeGroups, groupByte_eq (b := b0) (by omega), groupByte_eq (b := b1) (by omega)]
  | case4 b0 b1 b2 rest ih =>
    obtain ⟨vs, hvs, hdec⟩ := ih
    refine ⟨_, bcValues_groupChar_cons (bcValues_groupChar_cons (bcValues_groupChar_cons
      (bcValues_groupChar_cons hvs))), ?_⟩
    have h0 := b0.isLt
    have h1 := b1.isLt
    have h2 := b2.isLt
    rw [decodeGroups, hdec, groupByte_eq (b := b0) (by omega), groupByte_eq (b := b1) (by omega),
      groupByte_eq (b := b2) (by omega)]

theorem r64Decode_r64Encode (b : List Byte) : r64Decode (r64Encode b) = .ok b := by
  obtain ⟨vs, hvs, hdec⟩ := bcValues_r64Encode b
  have hlen : (r64Encode b).length % 4 ≠ 1 := by rw [r64Encode_length]; split_ifs <;> omega
  simp only [r64Decode, if_neg hlen, hvs, hdec]

/-! ## Encoding a decoding -/

/-- A whole group in front discards no bits. -/
theorem canonicalText_group_cons (c0 c1 c2 c3 : Byte) (t : List Byte) :
    canonicalText (c0 :: c1 :: c2 :: c3 :: t) ↔ canonicalText t := by
  cases t with
  | nil => simp [canonicalText]
  | cons c t =>
    have hlen : (c0 :: c1 :: c2 :: c3 :: c :: t).length % 4 = (c :: t).length % 4 := Nat.add_mod_right _ 4
    simp only [canonicalText, hlen, List.getLastD_cons]

theorem canonicalText_two {c0 : Byte} {v : Nat} (hv : v < 64) :
    canonicalText [c0, charOf bcAlpha v] ↔ v % 16 = 0 := by
  simp [canonicalText, valueIn_bcAlpha_charOf hv]

theorem canonicalText_three {c0 c1 : Byte} {v : Nat} (hv : v < 64) :
    canonicalText [c0, c1, charOf bcAlpha v] ↔ v % 4 = 0 := by
  simp [canonicalText, valueIn_bcAlpha_charOf hv]

/-- Encoding gives every value back but the last of a partial group, whose discarded bits it sets to zero. -/
theorem r64Encode_decodeGroups_iff {vs : List Nat} (hlen : vs.length % 4 ≠ 1) (hvs : ∀ v ∈ vs, v < 64) :
    r64Encode (decodeGroups vs) = vs.map (charOf bcAlpha) ↔ canonicalText (vs.map (charOf bcAlpha)) := by
  induction vs using decodeGroups.induct with
  | case1 => simp [decodeGroups, r64Encode, canonicalText]
  | case2 => exact absurd rfl hlen
  | case3 v0 v1 =>
    simp only [List.forall_mem_cons, List.not_mem_nil, false_implies, implies_true, and_true] at hvs
    obtain ⟨h0, h1⟩ := hvs
    simp only [decodeGroups, r64Encode, groupByte_toNat, List.map_cons, List.map_nil, canonicalText_two h1]
    rw [groupChar_eq (v := v0) (by omega), groupChar_eq (v := v1 / 16 * 16) (by omega)]
    simp only [List.cons.injEq, true_and, and_true]
    rw [charOf_bcAlpha_inj (by omega) h1]
    omega
  | case4 v0 v1 v2 =>
    simp only [List.forall_mem_cons, List.not_mem_nil, false_implies, implies_true, and_true] at hvs
    obtain ⟨h0, h1, h2⟩ := hvs
    simp only [decodeGroups, r64Encode, groupByte_toNat, List.map_cons, List.map_nil, canonicalText_three h2]
    rw [groupChar_eq (v := v0) (by omega), groupChar_eq (v := v1) (by omega),
      groupChar_eq (v := v2 / 4 * 4) (by omega)]
    simp only [List.cons.injEq, true_and, and_true]
    rw [charOf_bcAlpha_inj (by omega) h2]
    omega
  | case5 v0 v1 v2 v3 rest ih =>
    simp only [List.forall_mem_cons] at hvs
    obtain ⟨h0, h1, h2, h3, hrest⟩ := hvs
    simp only [decodeGroups, r64Encode, groupByte_toNat, List.map_cons, canonicalText_group_cons]
    rw [groupChar_eq (v := v0) (by omega), groupChar_eq (v := v1) (by omega), groupChar_eq (v := v2) (by omega),
      groupChar_eq (v := v3) (by omega), ← ih (Nat.add_mod_right _ 4 ▸ hlen) hrest]
    simp only [List.cons.injEq, true_and]

theorem r64Encode_eq_iff_canonicalText {t b : List Byte} (h : r64Decode t = .ok b) :
    r64Encode b = t ↔ canonicalText t := by
  obtain ⟨hlen, vs, hval, rfl⟩ := r64Decode_ok h
  obtain ⟨hlen', rfl, hlt⟩ := bcValues_some hval
  exact r64Encode_decodeGroups_iff (hlen' ▸ hlen) hlt

/-! ## The 22-character field -/

/-- The characters of the values 0, 16, 32 and 48 (R204). -/
theorem charOf_mem_canonicalLast {v : Nat} (hv : v < 64) :
    charOf bcAlpha v ∈ [0x2E#8, 0x4F#8, 0x65#8, 0x75#8] ↔ v % 16 = 0 := by
  have hfour : [0x2E#8, 0x4F#8, 0x65#8, 0x75#8] = [0, 16, 32, 48].map (charOf bcAlpha) := by decide
  rw [hfour]
  simp only [List.map_cons, List.map_nil, List.mem_cons, List.not_mem_nil, or_false]
  rw [charOf_bcAlpha_inj hv (by decide), charOf_bcAlpha_inj hv (by decide), charOf_bcAlpha_inj hv (by decide),
    charOf_bcAlpha_inj hv (by decide)]
  omega

theorem canonicalText_iff_last_of_length_22 {t : List Byte} (hlen : t.length = 22) (hmem : ∀ c ∈ t, c ∈ bcAlpha) :
    canonicalText t ↔ t.getLastD 0 ∈ [0x2E#8, 0x4F#8, 0x65#8, 0x75#8] := by
  have hlast : t.getLastD 0 ∈ bcAlpha := by
    have hne : t ≠ [] := List.ne_nil_of_length_eq_add_one hlen
    rw [List.getLastD_eq_getLast?, List.getLast?_eq_some_getLast hne]
    exact hmem _ (List.getLast_mem hne)
  obtain ⟨v, hv⟩ := Option.ne_none_iff_exists'.1 fun hn => valueIn_none.1 hn hlast
  obtain ⟨hlt, hchar⟩ := valueIn_some hv
  rw [bcAlpha_length] at hlt
  simp only [canonicalText, hlen, ← hchar, valueIn_bcAlpha_charOf hlt, charOf_mem_canonicalLast hlt]
  simp

/-- Settles O35; an encoding is canonical, being the encoding of what it decodes to. -/
theorem radixRoundTrips : Obligations.RadixRoundTrips :=
  ⟨r64Decode_r64Encode,
    fun _ b h => ⟨r64Encode_eq_iff_canonicalText h, (r64Encode_eq_iff_canonicalText (r64Decode_r64Encode b)).1 rfl⟩,
    fun _ => canonicalText_iff_last_of_length_22⟩

end Sys2Proof.Machine
end

section
/-! PROOF. Parsing a salt string that was composed, or whose minor version was replaced (42_codec.md R220 to R226). -/

namespace Sys2Proof.Machine

/-- A parse succeeds when its stages pass (42_codec.md R220 to R224). -/
theorem parseSalt_of_stages {s b : List Byte} (hstruct : structureOk s = true) (hversion : versionOk s = true)
    (hformat : formatOk s = true) (hlen : 29 ≤ s.length) (hdec : r64Decode (saltField s) = .ok b) :
    parseSalt s = .ok ⟨s.getD 2 0, costField s, padTo 16 b⟩ := by
  simp [parseSalt, hstruct, hversion, hformat, Nat.not_lt.2 hlen, hdec]

/-- A check with an error code, before a body whose errors have one. -/
theorem check_ne_error_none {α : Type} {c : Prop} [Decidable c] {code : ErrorCode} {x : Except ErrorCode α}
    (hc : code ≠ .none) (hx : x ≠ .error .none) : (if c then .error code else x) ≠ .error .none := by
  split
  · simpa using hc
  · exact hx

/-- A failed parse has an error code. -/
theorem parseSalt_ne_error_none {s : List Byte} : parseSalt s ≠ .error .none := by
  refine check_ne_error_none nofun <| check_ne_error_none nofun <| check_ne_error_none nofun <|
    check_ne_error_none nofun ?_
  split
  · rintro ⟨⟩
    rcases r64Decode_error ‹_› with ⟨-, hc⟩ | ⟨-, -, hc⟩ <;> cases hc
  · nofun

/-! ## A composed salt string -/

/-- The character of a decimal digit, and its value. -/
theorem digit_char : ∀ d < 10, isDigit (chr '0' + BitVec.ofNat 8 d) = true ∧
    (chr '0' + BitVec.ofNat 8 d).toNat - (chr '0').toNat = d := by decide

theorem digitsValue_dec2 {cost : Nat} (h : cost < 100) :
    digitsValue (chr '0' + BitVec.ofNat 8 (cost / 10)) (chr '0' + BitVec.ofNat 8 (cost % 10)) = cost := by
  obtain ⟨-, htens⟩ := digit_char (cost / 10) (by omega)
  obtain ⟨-, hunits⟩ := digit_char (cost % 10) (by omega)
  rw [digitsValue, htens, hunits]
  omega

theorem saltString_append (minor : Byte) (cost : Nat) (salt rest : List Byte) :
    saltString minor cost salt ++ rest = chr '$' :: chr '2' :: minor :: chr '$' ::
      (chr '0' + BitVec.ofNat 8 (cost / 10)) :: (chr '0' + BitVec.ofNat 8 (cost % 10)) :: chr '$' ::
      (r64Encode salt ++ rest) := by
  simp [saltString, dec2]

/-- A salt string parses back, whatever follows it. -/
theorem parseSalt_saltString {minor : Byte} {cost : Nat} (salt : Vector Byte 16) (rest : List Byte)
    (hm : isMinor minor = true) (h4 : 4 ≤ cost) (h31 : cost ≤ 31) :
    parseSalt (saltString minor cost salt.toList ++ rest) = .ok ⟨minor, cost, salt⟩ := by
  have henc : (r64Encode salt.toList).length = 22 := by simp [r64Encode_length]
  have hcost : costField (saltString minor cost salt.toList ++ rest) = cost := by
    rw [saltString_append]
    exact digitsValue_dec2 (by omega)
  have hfield : saltField (saltString minor cost salt.toList ++ rest) = r64Encode salt.toList := by
    rw [saltString_append]
    exact List.take_left' henc
  have hformat : formatOk (saltString minor cost salt.toList ++ rest) = true := by
    rw [formatOk_iff, hcost, saltString_append]
    exact ⟨hm, (digit_char _ (by omega)).1, (digit_char _ (by omega)).1, h4, h31⟩
  have hlen : 29 ≤ (saltString minor cost salt.toList ++ rest).length := by
    simp [saltString_length]
  have hdec : r64Decode (saltField (saltString minor cost salt.toList ++ rest)) = .ok salt.toList := by
    rw [hfield, r64Decode_r64Encode]
  have hstruct : structureOk (saltString minor cost salt.toList ++ rest) = true := by
    simp [structureOk, saltString_append]
  have hversion : versionOk (saltString minor cost salt.toList ++ rest) = true := by
    simp [versionOk, saltString_append]
  rw [parseSalt_of_stages hstruct hversion hformat hlen hdec, hcost, padTo_self, saltString_append]
  rfl

/-! ## Another minor version -/

theorem getD_set_of_ne (s : List Byte) (m : Byte) {i j : Nat} (h : j ≠ i) : (s.set j m).getD i 0 = s.getD i 0 := by
  simp [List.getD_eq_getElem?_getD, List.getElem?_set_ne h]

/-- With another accepted minor version at index 2, a parse gives that minor version and the same cost and salt. -/
theorem parseSalt_set_minor {s : List Byte} {m : Byte} {r : ParsedSalt} (h : parseSalt s = .ok r)
    (hm : isMinor m = true) : parseSalt (s.set 2 m) = .ok { r with minor := m } := by
  obtain ⟨hstruct, hversion, hformat, hlen, b, hdec, rfl⟩ := parseSalt_ok h
  obtain ⟨-, hd4, hd5, hcost⟩ := formatOk_iff.1 hformat
  have hget (i : Nat) (hi : 2 ≠ i) : (s.set 2 m).getD i 0 = s.getD i 0 := getD_set_of_ne s m hi
  have hminor : (s.set 2 m).getD 2 0 = m := by
    simp [List.getD_eq_getElem?_getD, List.getElem?_set_self (show 2 < s.length by omega)]
  have hcostField : costField (s.set 2 m) = costField s := by
    simp only [costField, hget 4 (by decide), hget 5 (by decide)]
  have hfield : saltField (s.set 2 m) = saltField s := by
    rw [saltField, List.drop_set_of_lt (by decide), saltField]
  have hstruct' : structureOk (s.set 2 m) = true := by
    simpa only [structureOk, List.length_set, hget 3 (by decide), hget 6 (by decide)] using hstruct
  have hversion' : versionOk (s.set 2 m) = true := by
    simpa only [versionOk, hget 0 (by decide), hget 1 (by decide)] using hversion
  have hformat' : formatOk (s.set 2 m) = true := by
    rw [formatOk_iff, hcostField, hget 4 (by decide), hget 5 (by decide), hminor]
    exact ⟨hm, hd4, hd5, hcost⟩
  rw [parseSalt_of_stages hstruct' hversion' hformat' (by rwa [List.length_set]) (hfield ▸ hdec), hminor, hcostField]

end Sys2Proof.Machine
end

section
/-! PROOF. The digest (43_bcrypt.md R250 to R252). -/

namespace Sys2Proof.Machine

/-- The bytes of a word, put together again. -/
theorem append_bytesBE (w : Word) :
    w.extractLsb' 24 8 ++ w.extractLsb' 16 8 ++ w.extractLsb' 8 8 ++ w.extractLsb' 0 8 = w := by
  have hjoin (n k : Nat) : w.extractLsb' (n + 8) k ++ w.extractLsb' n 8 = w.extractLsb' n (k + 8) :=
    BitVec.extractLsb'_append_extractLsb'_eq_extractLsb' rfl
  rw [hjoin 16, hjoin 8, hjoin 0, BitVec.extractLsb'_eq_self]

/-- Block `k` stands in the digest from byte `8k` on, the left word first, both big-endian (R251). -/
theorem digestOf_words (c : CipherState) (k : Fin 3) :
    be32 ((digestOf c).getD (8 * k) 0) ((digestOf c).getD (8 * k + 1) 0) ((digestOf c).getD (8 * k + 2) 0)
      ((digestOf c).getD (8 * k + 3) 0) = (digestBlock c k).1 ∧
    be32 ((digestOf c).getD (8 * k + 4) 0) ((digestOf c).getD (8 * k + 5) 0) ((digestOf c).getD (8 * k + 6) 0)
      ((digestOf c).getD (8 * k + 7) 0) = (digestBlock c k).2 := by
  match k with
  | 0 | 1 | 2 => exact ⟨append_bytesBE _, append_bytesBE _⟩

/-- The blocks of the plaintext, each encrypted 64 times, by any sequence that obeys the recurrence. -/
theorem digestBlock_eq_seq {c : CipherState} {k : Nat} {x : Nat → Word × Word}
    (h0 : x 0 = (ctextWord (2 * k), ctextWord (2 * k + 1))) (hstep : ∀ n, x (n + 1) = c.encrypt (x n)) :
    digestBlock c k = x 64 := by
  rw [digestBlock, ← h0, iterate_eq_seq _ x hstep]

theorem exec_bcDigest_valid {s : State} (hv : s.eng.stateValid = true) : exec .bcDigest s =
    .next { s with eng := { s.eng with digest := padTo 24 (digestOf s.eng.cipher) }.finish .none } := by
  simp [exec_eq_complete, commandBody, bcDigest, hv]

/-- Settles O44: each block's sequence is the iteration that the digest holds. -/
theorem digestEncryptsThePlaintext : Obligations.DigestEncryptsThePlaintext := by
  intro s x hv h0 h1 h2 hstep
  refine ⟨_, exec_bcDigest_valid hv, rfl, fun k => ?_⟩
  have hblock : digestBlock s.eng.cipher k = x k 64 := by
    refine digestBlock_eq_seq ?_ (hstep k)
    match k with
    | 0 => exact h0
    | 1 => exact h1
    | 2 => exact h2
  simp only [Engine.finish_digest, padTo_getElem, ← hblock]
  exact digestOf_words s.eng.cipher k

end Sys2Proof.Machine
end

section
/-! PROOF. HashString, BC_HASH and BC_CHECK (43_bcrypt.md R253 to R259). -/

namespace Sys2Proof.Machine

/-! ## HashString -/

/-- What HashString makes of a parsed salt string (R253). -/
def hashResult (pwKey : List Byte) (r : ParsedSalt) : HashResult where
  text := saltString r.minor r.cost r.salt.toList ++
    r64Encode ((digestOf (eksSetupState pwKey r.salt.toList r.cost).1).take 23)
  costCtr := BitVec.ofNat 32 (2 ^ r.cost)

/-- HashString depends on its string through the parse alone. -/
theorem hashString_eq_map (pwKey s : List Byte) : hashString pwKey s = (parseSalt s).map (hashResult pwKey) := by
  unfold hashString
  cases parseSalt s with
  | error code => rfl
  | ok r => simp [hashResult, Except.map, eksSetupState_eq]

theorem hashString_of_parse {pwKey s : List Byte} {r : ParsedSalt} (h : parseSalt s = .ok r) :
    hashString pwKey s = .ok (hashResult pwKey r) := by
  rw [hashString_eq_map, h]; rfl

/-- Nothing from index 29 on is read. -/
theorem hashString_take (pwKey s : List Byte) : hashString pwKey (s.take 29) = hashString pwKey s := by
  rw [hashString_eq_map, parseSalt_take, ← hashString_eq_map]

theorem hashString_ne_error_none {pwKey s : List Byte} : hashString pwKey s ≠ .error .none := by
  rw [hashString_eq_map]
  intro h
  cases hr : parseSalt s with
  | error code =>
    rw [hr] at h
    cases h
    exact parseSalt_ne_error_none hr
  | ok r => rw [hr] at h; cases h

/-- A hash string parses back to the salt string it was made of. -/
theorem hashString_text {pwKey s : List Byte} {h : HashResult} (hh : hashString pwKey s = .ok h) :
    hashString pwKey h.text = .ok h := by
  obtain ⟨r, hr, -⟩ := hashString_ok hh
  obtain rfl := Except.ok.inj ((hashString_of_parse hr).symm.trans hh)
  obtain ⟨h4, h31⟩ := parseSalt_cost hr
  exact hashString_of_parse (parseSalt_saltString r.salt _ (parseSalt_minor hr) h4 h31)

/-- The minor version of a hash string stands at index 2 and nowhere else (R258). -/
theorem hashResult_minor (pwKey : List Byte) (r : ParsedSalt) (m : Byte) :
    hashResult pwKey { r with minor := m } = ⟨(hashResult pwKey r).text.set 2 m, (hashResult pwKey r).costCtr⟩ := by
  simp only [hashResult, saltString_append, List.set_cons_succ, List.set_cons_zero]

/-- The accepted minor versions, in the characters' codes (42_codec.md R222). -/
theorem isMinor_of_mem : ∀ m ∈ [0x61#8, 0x62#8, 0x78#8, 0x79#8], isMinor m = true := by decide

/-- Settles O49: the parse with another minor version differs in that field, and HashString only copies it. -/
theorem minorVersionAffectsOnlyItself : Obligations.MinorVersionAffectsOnlyItself := by
  intro pwKey s m m' h _ hm' _ hh
  obtain ⟨r, hr, -⟩ := hashString_ok hh
  obtain rfl := Except.ok.inj ((hashString_of_parse hr).symm.trans hh)
  rw [hashString_of_parse (parseSalt_set_minor hr (isMinor_of_mem m' hm')), hashResult_minor]

/-! ## BC_HASH and BC_CHECK on HashString -/

/-- The engine after a BC_HASH that made `h` (R254). -/
def Engine.hashed (e : Engine) (h : HashResult) : Engine := { e.putStrOut h.text with costCtr := h.costCtr }.discard

theorem Engine.hashed_eq (e : Engine) {h : HashResult} (hlen : h.text.length = 60) : e.hashed h =
    { e with
      strOut := padTo 64 h.text, strOutLen := 60#8, costCtr := h.costCtr
      cipher := CipherState.zero, stateValid := false } := by
  simp [hashed, discard, withCipher, putStrOut, hlen]

/-- The engine after a BC_CHECK for which HashString made `h` (R255). -/
def Engine.checked (e : Engine) (h : HashResult) : Engine :=
  { e with
    matched := decide (e.strInText.length = 60 ∧ h.text = e.strInText)
    costCtr := h.costCtr }.discard

theorem Engine.strInTooLong_eq_false {e : Engine} {limit : Nat} :
    e.strInTooLong limit = false ↔ e.strInLen.toNat ≤ limit := by
  simp [strInTooLong]

section
variable {e : Engine}

theorem bcHash_of_keyTooLong (hk : e.keyTooLong = true) : bcHash e = .error .boundedLengthExceeded := by
  simp [bcHash, hk]

theorem bcCheck_of_keyTooLong (hk : e.keyTooLong = true) : bcCheck e = .error .boundedLengthExceeded := by
  simp [bcCheck, hk]

variable (hk : e.keyTooLong = false) (hs : e.strInTooLong 60 = false)
include hk hs

theorem bcHash_eq_map : bcHash e = (hashString e.pwKey e.strInText).map e.hashed := by
  rw [bcHash, hk, Config.hashStringLen, hs]
  cases hashString e.pwKey e.strInText <;> rfl

/-- The first 29 characters make what the whole string makes. -/
theorem bcCheck_eq_map : bcCheck e = (hashString e.pwKey e.strInText).map e.checked := by
  rw [bcCheck, hk, Config.hashStringLen, hs, Config.saltStringLen, hashString_take]
  cases hashString e.pwKey e.strInText with
  | error code => rfl
  | ok h => simp [Except.map, Engine.checked, Bool.decide_and]

end

theorem exec_bcHash_of_hashString {s : State} {h : HashResult} (hk : s.eng.keyTooLong = false)
    (hs : s.eng.strInTooLong 60 = false) (hh : hashString s.eng.pwKey s.eng.strInText = .ok h) :
    exec .bcHash s = .next { s with eng := (s.eng.hashed h).finish .none } := by
  rw [exec_eq_complete, commandBody, bcHash_eq_map hk hs, hh]; rfl

theorem exec_bcCheck_of_hashString {s : State} {h : HashResult} (hk : s.eng.keyTooLong = false)
    (hs : s.eng.strInTooLong 60 = false) (hh : hashString s.eng.pwKey s.eng.strInText = .ok h) :
    exec .bcCheck s = .next { s with eng := (s.eng.checked h).finish .none } := by
  rw [exec_eq_complete, commandBody, bcCheck_eq_map hk hs, hh]; rfl

/-- The first characters of a hash string, the cost in two digits. -/
theorem saltString_eq (minor : Byte) (cost : Nat) (salt : List Byte) : saltString minor cost salt =
    [0x24#8, 0x32#8, minor, 0x24#8, BitVec.ofNat 8 (0x30 + cost / 10), BitVec.ofNat 8 (0x30 + cost % 10), 0x24#8] ++
      r64Encode salt := by
  rw [saltString, dec2, BitVec.ofNat_add, BitVec.ofNat_add]
  rfl

/-- Settles O45: the string parses, so BC_HASH writes what HashString makes of the parse. -/
theorem hashWritesTheHashString : Obligations.HashWritesTheHashString := by
  intro s r text hk hs hr htext
  have hh : hashString s.eng.pwKey s.eng.strInText = .ok (hashResult s.eng.pwKey r) := hashString_of_parse hr
  have hlen := hashString_length hh
  have hresult : text = (hashResult s.eng.pwKey r).text := by
    rw [htext, hashResult, saltString_eq]; rfl
  refine ⟨hresult ▸ hlen, _, exec_bcHash_of_hashString (Engine.keyTooLong_eq_false.2 hk)
    (Engine.strInTooLong_eq_false.2 hs) hh, ?_, fun k => ?_⟩
  · rw [Engine.hashed_eq _ hlen]; rfl
  · rw [hresult]
    exact padTo_getElem 64 _ k k.isLt

/-- Settles O46: the string parses, so BC_CHECK compares it with what HashString makes of the parse. -/
theorem checkComparesTheWholeString : Obligations.CheckComparesTheWholeString := by
  rintro s r text hk hs rfl hr
  have hh : hashString s.eng.pwKey s.eng.strInText = .ok (hashResult s.eng.pwKey r) := hashString_of_parse hr
  exact ⟨_, (hashString_take _ _).trans hh, exec_bcCheck_of_hashString (Engine.keyTooLong_eq_false.2 hk)
    (Engine.strInTooLong_eq_false.2 hs) hh⟩

/-! ## BC_CHECK against BC_HASH -/

theorem bcHash_ne_error_none {e : Engine} : bcHash e ≠ .error .none := by
  refine check_ne_error_none nofun (check_ne_error_none nofun ?_)
  split
  · rintro ⟨⟩
    exact hashString_ne_error_none ‹_›
  · nofun

/-- BC_CHECK on the string HashString makes of it sets MATCH. -/
theorem exec_bcCheck_matches {s : State} {h : HashResult} (hk : s.eng.keyTooLong = false)
    (hs : s.eng.strInTooLong 60 = false) (hh : hashString s.eng.pwKey s.eng.strInText = .ok h)
    (htext : s.eng.strInText = h.text) :
    ∃ u, exec .bcCheck s = .next u ∧ u.eng.err = .none ∧ u.eng.matched = true :=
  ⟨_, exec_bcCheck_of_hashString hk hs hh, rfl, decide_eq_true ⟨htext ▸ hashString_length hh, htext.symm⟩⟩

/-- Settles O48: the hash string parses back, so HashString makes it again. -/
theorem hashThenCheckMatches : Obligations.HashThenCheckMatches := by
  intro s t h herr
  rw [exec_eq_complete] at h
  rcases complete_cases h with ⟨e, he, rfl⟩ | ⟨code, he, rfl⟩
  · obtain ⟨hk, -, x, hx, hhashed⟩ := bcHash_ok he
    have hlen := hashString_length hx
    obtain rfl : e = _ := hhashed.trans (s.eng.hashed_eq hlen)
    have htext : firstBytes (padTo 64 x.text) 60 = x.text := hlen ▸ firstBytes_padTo (hlen ▸ by decide)
    refine exec_bcCheck_matches hk rfl ?_ htext
    exact (congrArg (hashString s.eng.pwKey) htext).trans (hashString_text hx)
  · obtain rfl : code = .none := herr
    exact absurd he bcHash_ne_error_none

/-- The bytes of STR_IN and the string it holds. -/
theorem Engine.strInText_getD {e : Engine} (k : Fin 64) (hk : k.val < e.strInLen.toNat) :
    e.strInText.getD k 0 = e.strIn[k] := by
  simp [strInText, firstBytes, List.getD_eq_getElem?_getD, hk]

/-- The stored string is `text` when STR_IN_LEN and the 60 bytes of STR_IN say so. -/
theorem Engine.strInText_eq_iff {e : Engine} {text : List Byte} (hs : e.strInLen.toNat ≤ 60)
    (hlen : text.length = 60) :
    e.strInText.length = 60 ∧ text = e.strInText ↔
      60#8 = e.strInLen ∧ ∀ k : Fin 64, k.val < 60 → (padTo 64 text)[k] = e.strIn[k] := by
  have hlength : e.strInText.length = e.strInLen.toNat := (firstBytes_length _ _).trans (by omega)
  rw [hlength]
  constructor
  · rintro ⟨h60, rfl⟩
    refine ⟨BitVec.eq_of_toNat_eq h60.symm, fun k hk => ?_⟩
    rw [← strInText_getD k (by omega)]
    exact padTo_getElem 64 _ k k.isLt
  · rintro ⟨h60, hbytes⟩
    have h60' : e.strInLen.toNat = 60 := congrArg BitVec.toNat h60.symm
    refine ⟨h60', ?_⟩
    calc text = firstBytes (padTo 64 text) text.length := (firstBytes_padTo (by omega)).symm
      _ = firstBytes e.strIn 60 := by rw [hlen]; exact firstBytes_congr hbytes
      _ = e.strInText := by rw [strInText, h60']

/-- The operand of the BC_HASH that a BC_CHECK stands for: the first 29 characters of STR_IN at most (R256). -/
def Engine.saltOnly (e : Engine) : Engine := { e with strInLen := BitVec.ofNat 8 (min e.strInLen.toNat 29) }

theorem Engine.saltOnly_strInLen (e : Engine) : e.saltOnly.strInLen.toNat = min e.strInLen.toNat 29 := by
  simp only [saltOnly, BitVec.toNat_ofNat]
  omega

theorem Engine.saltOnly_strInText (e : Engine) : e.saltOnly.strInText = e.strInText.take 29 := by
  rw [strInText, saltOnly_strInLen, strInText, firstBytes, firstBytes, List.take_take, Nat.min_comm]
  rfl

/-- BC_CHECK and the BC_HASH on the salt characters fail alike, or end on the same result of HashString. -/
theorem bcCheck_bcHash_saltOnly {e : Engine} (hs : e.strInLen.toNat ≤ 60) :
    (∃ code, code ≠ .none ∧ bcCheck e = .error code ∧ bcHash e.saltOnly = .error code) ∨
    ∃ h : HashResult, h.text.length = 60 ∧ bcCheck e = .ok (e.checked h) ∧
      bcHash e.saltOnly = .ok (e.saltOnly.hashed h) := by
  cases hk : e.keyTooLong with
  | true => exact .inl ⟨.boundedLengthExceeded, nofun, bcCheck_of_keyTooLong hk,
      bcHash_of_keyTooLong (e := e.saltOnly) hk⟩
  | false =>
    have hs' : e.saltOnly.strInTooLong 60 = false := Engine.strInTooLong_eq_false.2 (by rw [e.saltOnly_strInLen]; omega)
    have hcheck := bcCheck_eq_map hk (Engine.strInTooLong_eq_false.2 hs)
    have hhash := bcHash_eq_map (e := e.saltOnly) hk hs'
    rw [e.saltOnly_strInText, hashString_take, show e.saltOnly.pwKey = e.pwKey from rfl] at hhash
    cases hh : hashString e.pwKey e.strInText with
    | error code =>
      rw [hh] at hcheck hhash
      refine .inl ⟨code, ?_, hcheck, hhash⟩
      rintro rfl
      exact hashString_ne_error_none hh
    | ok h =>
      rw [hh] at hcheck hhash
      exact .inr ⟨h, hashString_length hh, hcheck, hhash⟩

/-- Settles O47: both report one error, or compare with and write one result of HashString. -/
theorem checkDelegatesToHash : Obligations.CheckDelegatesToHash := by
  intro s t u hs ht hu
  rw [exec_eq_complete] at ht hu
  rcases bcCheck_bcHash_saltOnly hs with ⟨code, hcode, hcheck, hhash⟩ | ⟨h, hlen, hcheck, hhash⟩
  · obtain rfl := Host.Outcome.next.inj ((congrArg (complete s) hcheck).symm.trans ht)
    obtain rfl := Host.Outcome.next.inj ((congrArg (complete _) hhash).symm.trans hu)
    exact ⟨rfl, fun hnone => absurd hnone hcode⟩
  · obtain rfl := Host.Outcome.next.inj ((congrArg (complete s) hcheck).symm.trans ht)
    rw [Engine.hashed_eq _ hlen] at hhash
    obtain rfl := Host.Outcome.next.inj ((congrArg (complete _) hhash).symm.trans hu)
    exact ⟨rfl, fun _ => decide_eq_true_iff.trans (Engine.strInText_eq_iff hs hlen)⟩

end Sys2Proof.Machine
end

section
/-! PROOF. Errors write only the report, and a report stays until the next issue (60_exceptions.md R297, R298). -/

namespace Sys2Proof.Machine

/-- A command that ends in an error leaves its state but for the report. -/
theorem exec_error {i : Instr} {s t : State} (h : exec i s = .next t) (herr : t.eng.err ≠ .none) :
    t = { s with eng := s.eng.finish t.eng.err } := by
  rw [exec_eq_complete] at h
  rcases complete_cases h with ⟨e, -, rfl⟩ | ⟨code, -, rfl⟩
  · exact absurd rfl herr
  · rfl

/-- So does the engine's turn on a pending word, legal or not. -/
theorem engineTurn_error {s t : State} (hp : s.eng.pend ≠ none) (h : engineTurn s = .next t)
    (herr : t.eng.err ≠ .none) : t = { s with eng := s.eng.finish t.eng.err } := by
  rcases engineTurn_next h with ⟨hnone, -⟩ | ⟨w, i, e, -, -, -, rfl⟩ | ⟨w, code, -, rfl, -⟩
  · exact absurd hnone hp
  · exact absurd rfl herr
  · rfl

/-- Settles O21: an error's only write is the `finish` that ends every command. -/
theorem errorsChangeOnlyTheReport : Obligations.ErrorsChangeOnlyTheReport := by
  have idle {s t : State} (h : t = { s with eng := s.eng.finish t.eng.err }) : t.eng.busy = false := by
    rw [h]; rfl
  exact ⟨fun i s t h herr => ⟨exec_error h herr, idle (exec_error h herr)⟩,
    fun s t hp h herr => ⟨engineTurn_error hp h herr, idle (engineTurn_error hp h herr)⟩⟩

/-- Settles O17, by whose turn it is: an idle engine's turn does nothing, and a host's issues a word or leaves the
report. -/
theorem reportStaysUntilNextIssue : Obligations.ReportStaysUntilNextIssue := by
  intro s t hp h
  rw [← popTurn_eng s] at hp ⊢
  rcases step_next h with ⟨-, he⟩ | ⟨k, -, hk⟩ | ⟨hreset, -⟩
  · obtain rfl := Host.Outcome.next.inj ((engineTurn_none hp).symm.trans he)
    exact .inl ⟨rfl, rfl, rfl, rfl⟩
  · rcases hostTurn_issues_or_sameReport hk with ⟨w, hw⟩ | ⟨-, hdone, hmatched, herr, hop, -⟩
    · exact .inr (.inl ⟨w, by rw [hw, Engine.issue_pend]⟩)
    · exact .inl ⟨herr, hmatched, hdone, hop⟩
  · exact .inr (.inr hreset)

end Sys2Proof.Machine
end

section
/-! PROOF. Instances of a platform are independent (60_exceptions.md R302). -/

namespace Sys2Proof.Machine

/-- A step at `k` writes slot `k`, and it is the same step on every platform with that slot. -/
theorem Platform.stepAt_next {p q : Platform} {k : Nat} (h : p.stepAt k = .next q) :
    ∃ slot, q = p.set k slot ∧ ∀ p' : Platform, p'[k]? = p[k]? → p'.stepAt k = .next (p'.set k slot) := by
  cases hk : p[k]? with
  | none =>
    have noStep {p' : Platform} (hp' : p'[k]? = none) : p'.stepAt k = .next p' := by simp only [stepAt, hp']
    have noSlot {p' : Platform} (hp' : p'[k]? = none) : p'.set k ⟨0, State.reset⟩ = p' :=
      List.set_eq_of_length_le (List.getElem?_eq_none_iff.1 hp')
    refine ⟨⟨0, State.reset⟩, ?_, fun p' hp' => ?_⟩
    · rw [noSlot hk]
      exact (Host.Outcome.next.inj ((noStep hk).symm.trans h)).symm
    · rw [noSlot hp', noStep hp']
  | some slot =>
    simp only [stepAt, hk] at h
    cases hs : step slot.machine with
    | next s =>
      rw [hs] at h
      exact ⟨{ slot with machine := s }, (Host.Outcome.next.inj h).symm, fun p' hp' => by simp only [stepAt, hp', hs]⟩
    | fault r => rw [hs] at h; cases h
    | refused r => rw [hs] at h; cases h

/-- Settles O53: each step writes its own slot, which the other step does not see. -/
theorem instancesAreIndependent : Obligations.InstancesAreIndependent := by
  refine ⟨fun p q j k hk hjk => ?_, fun p q r j k hjk hj hk => ?_⟩
  · obtain ⟨slot, rfl, -⟩ := Platform.stepAt_next hk
    exact List.getElem?_set_ne hjk.symm
  · obtain ⟨a, rfl, hstepj⟩ := Platform.stepAt_next hj
    obtain ⟨b, rfl, hstepk⟩ := Platform.stepAt_next hk
    refine ⟨p.set k b, hstepk p (List.getElem?_set_ne hjk).symm, ?_⟩
    rw [List.set_comm a b hjk]
    exact hstepj (p.set k b) (List.getElem?_set_ne hjk.symm)

end Sys2Proof.Machine
end

section
/-! PROOF. Every command reports its first failing check (60_exceptions.md R282, R285). -/

namespace Sys2Proof.Machine

/-! ## The code of a result -/

/-- The code that a result reports: `resultCode`, for results of every type. -/
def codeOf {α : Type} : Except ErrorCode α → ErrorCode
  | .ok _ => .none
  | .error code => code

theorem resultCode_eq_codeOf (body : Except ErrorCode Engine) : resultCode body = codeOf body := by
  cases body <;> rfl

theorem codeOf_map {α β : Type} (f : α → β) (x : Except ErrorCode α) : codeOf (x.map f) = codeOf x := by
  cases x <;> rfl

/-- A check reports its code when it fails, and leaves the report to the body after it when it passes. -/
theorem codeOf_check {α : Type} {c c' : Prop} [Decidable c] [Decidable c'] {code r : ErrorCode}
    {x : Except ErrorCode α} (hc : c ↔ c') (hx : ¬ c' → codeOf x = r) :
    codeOf (if c then .error code else x) = if c' then code else r := by
  by_cases h : c'
  · rw [if_pos h, if_pos (hc.2 h)]; rfl
  · rw [if_neg h, if_neg (mt hc.1 h), hx h]

/-! ## Lengths and cost -/

theorem Engine.keyTooLong_iff {e : Engine} : e.keyTooLong = true ↔ 72 < e.keyLen.toNat := by
  simp [keyTooLong]

theorem Engine.strInTooLong_iff {e : Engine} {limit : Nat} : e.strInTooLong limit = true ↔ limit < e.strInLen.toNat := by
  simp [strInTooLong]

theorem Engine.bytesTooLong_iff {e : Engine} : e.bytesTooLong = true ↔ 48 < e.bytesLen.toNat := by
  simp [bytesTooLong]

theorem costError_getD (cost : Byte) : (costError cost).getD .none =
    if 31 < cost.toNat then .roundsExceeded else if cost.toNat < 4 then .roundsBelowMinimum else .none := by
  unfold costError
  split
  · rfl
  · split <;> rfl

theorem codeOf_saltGenFrom (e : Engine) : codeOf (saltGenFrom e) = (costError e.cost).getD .none := by
  unfold saltGenFrom genSalt
  cases costError e.cost <;> rfl

/-! ## Texts -/

theorem codeOf_translate (src dst t : List Byte) :
    codeOf (translate src dst t) = if ∃ c ∈ t, c ∉ src then .r64InvalidChar else .none := by
  have hok := translate_ok_iff (src := src) (dst := dst) (t := t)
  cases h : translate src dst t with
  | ok u =>
    have hall := hok.1 ⟨u, h⟩
    exact (if_neg (by simpa using hall)).symm
  | error code =>
    have hnot : ¬ ∀ c ∈ t, c ∈ src := fun hall => by
      obtain ⟨u, hu⟩ := hok.2 hall
      cases h.symm.trans hu
    rw [if_pos (by simpa using hnot)]
    exact translate_error h

theorem codeOf_r64Decode (t : List Byte) : codeOf (r64Decode t) =
    if t.length % 4 = 1 then .r64InvalidLength
    else if ∃ c ∈ t, c ∉ bcAlpha then .r64InvalidChar else .none := by
  refine codeOf_check .rfl fun _ => ?_
  cases h : bcValues t with
  | none => rw [if_pos (bcValues_none.1 h)]; rfl
  | some vs => rw [if_neg fun hc => nomatch h.symm.trans (bcValues_none.2 hc)]; rfl

/-! ## Salt strings, stage by stage (42_codec.md R220 to R224) -/

theorem structureOk_eq_false {s : List Byte} :
    structureOk s = false ↔ s.length < 7 ∨ s.getD 3 0 ≠ 0x24#8 ∨ s.getD 6 0 ≠ 0x24#8 := by
  have hdollar : chr '$' = 0x24#8 := rfl
  simp only [structureOk, hdollar, Bool.and_eq_false_iff, decide_eq_false_iff_not, beq_eq_false_iff_ne, Nat.not_le,
    or_assoc]

theorem versionOk_eq_false {s : List Byte} : versionOk s = false ↔ s.getD 0 0 ≠ 0x24#8 ∨ s.getD 1 0 ≠ 0x32#8 := by
  have hdollar : chr '$' = 0x24#8 := rfl
  have htwo : chr '2' = 0x32#8 := rfl
  simp only [versionOk, hdollar, htwo, Bool.and_eq_false_iff, beq_eq_false_iff_ne]

theorem isMinor_iff {c : Byte} : isMinor c = true ↔ c ∈ [0x61#8, 0x62#8, 0x78#8, 0x79#8] := by
  refine ⟨fun h => ?_, isMinor_of_mem c⟩
  simpa [isMinor, chr, or_assoc] using h

theorem isDigit_iff {c : Byte} : isDigit c = true ↔ 0x30 ≤ c.toNat ∧ c.toNat ≤ 0x39 := by
  have h0 : (chr '0').toNat = 0x30 := rfl
  have h9 : (chr '9').toNat = 0x39 := rfl
  simp only [isDigit, h0, h9, Bool.and_eq_true, decide_eq_true_eq]

theorem costField_eq (s : List Byte) :
    costField s = 10 * ((s.getD 4 0).toNat - 0x30) + ((s.getD 5 0).toNat - 0x30) := rfl

theorem formatOk_eq_false {s : List Byte} : formatOk s = false ↔
    s.getD 2 0 ∉ [0x61#8, 0x62#8, 0x78#8, 0x79#8] ∨
      ¬ (0x30 ≤ (s.getD 4 0).toNat ∧ (s.getD 4 0).toNat ≤ 0x39) ∨
      ¬ (0x30 ≤ (s.getD 5 0).toNat ∧ (s.getD 5 0).toNat ≤ 0x39) ∨
      10 * ((s.getD 4 0).toNat - 0x30) + ((s.getD 5 0).toNat - 0x30) < 4 ∨
      31 < 10 * ((s.getD 4 0).toNat - 0x30) + ((s.getD 5 0).toNat - 0x30) := by
  rw [← Bool.not_eq_true, formatOk_iff, isMinor_iff, isDigit_iff, isDigit_iff, costField_eq]
  simp only [not_and_or, Nat.not_le]

theorem codeOf_parseSalt (s : List Byte) : codeOf (parseSalt s) = saltStringError s := by
  refine codeOf_check structureOk_eq_false fun _ => codeOf_check versionOk_eq_false fun _ =>
    codeOf_check formatOk_eq_false fun _ => codeOf_check .rfl fun hlen => ?_
  have hfield : (saltField s).length % 4 ≠ 1 := by rw [saltField_length (by omega)]; decide
  have hdec := codeOf_r64Decode (saltField s)
  rw [if_neg hfield] at hdec
  cases h : r64Decode (saltField s) with
  | error code => rw [h] at hdec; exact hdec
  | ok b => rw [h] at hdec; exact hdec

theorem codeOf_hashString (pwKey s : List Byte) : codeOf (hashString pwKey s) = saltStringError s := by
  rw [hashString_eq_map, codeOf_map, codeOf_parseSalt]

/-! ## Commands -/

section
variable (e : Engine)

theorem xlatToBcrypt_eq : xlatToBcrypt e = if e.strInTooLong 64 then .error .boundedLengthExceeded
    else (toBcrypt e.strInText).map e.putStrOut := by
  unfold xlatToBcrypt
  cases toBcrypt e.strInText <;> rfl

theorem xlatToStd_eq : xlatToStd e = if e.strInTooLong 64 then .error .boundedLengthExceeded
    else (toStd e.strInText).map e.putStrOut := by
  unfold xlatToStd
  cases toStd e.strInText <;> rfl

theorem r64DecodeCmd_eq : r64DecodeCmd e = if e.strInTooLong 64 then .error .boundedLengthExceeded
    else (r64Decode e.strInText).map e.putBytes := by
  unfold r64DecodeCmd
  cases r64Decode e.strInText <;> rfl

/-- The engine after a SALT_PARSE that made `r` (42_codec.md R225). -/
def Engine.parsed (r : ParsedSalt) : Engine :=
  { e with minor := r.minor, cost := BitVec.ofNat 8 r.cost, salt := r.salt }

theorem saltParse_eq : saltParse e = if e.strInTooLong 60 then .error .boundedLengthExceeded
    else (parseSalt e.strInText).map e.parsed := by
  unfold saltParse
  cases parseSalt e.strInText <;> rfl

theorem bcHash_eq : bcHash e = if e.keyTooLong then .error .boundedLengthExceeded
    else if e.strInTooLong 60 then .error .boundedLengthExceeded
    else (hashString e.pwKey e.strInText).map e.hashed := by
  unfold bcHash
  cases hashString e.pwKey e.strInText <;> rfl

theorem bcCheck_eq : bcCheck e = if e.keyTooLong then .error .boundedLengthExceeded
    else if e.strInTooLong 60 then .error .boundedLengthExceeded
    else (hashString e.pwKey e.strInText).map e.checked := by
  split
  · exact bcCheck_of_keyTooLong ‹_›
  · split
    · simp_all [bcCheck]
    · exact bcCheck_eq_map (by simp_all) (by simp_all)

end

/-- The code of every command is that of the first failing check of its row (R285). -/
theorem codeOf_commandBody (i : Instr) (e : Engine) : codeOf (commandBody i e) = checkOrder i e := by
  cases i with
  | bfInit => rfl
  | bfDiscard => rfl
  | bfEncrypt => exact codeOf_check .rfl fun _ => rfl
  | eksExpandS => exact codeOf_check .rfl fun _ => rfl
  | bcDigest => exact codeOf_check .rfl fun _ => rfl
  | eksExpandSk => exact codeOf_check Engine.keyTooLong_iff fun _ => codeOf_check .rfl fun _ => rfl
  | eksExpandK => exact codeOf_check Engine.keyTooLong_iff fun _ => codeOf_check .rfl fun _ => rfl
  | eksSetup =>
    refine codeOf_check Engine.keyTooLong_iff fun _ => ?_
    rw [← costError_getD]
    cases costError e.cost <;> rfl
  | r64Encode => exact codeOf_check Engine.bytesTooLong_iff fun _ => rfl
  | r64Decode =>
    rw [commandBody, r64DecodeCmd_eq]
    refine codeOf_check Engine.strInTooLong_iff fun hs => ?_
    have hlen : e.strInText.length = e.strInLen.toNat := by
      rw [Engine.strInText, firstBytes_length]
      omega
    rw [codeOf_map, codeOf_r64Decode, hlen]
    rfl
  | xlatToBcrypt =>
    rw [commandBody, xlatToBcrypt_eq]
    exact codeOf_check Engine.strInTooLong_iff fun _ => (codeOf_map _ _).trans (codeOf_translate _ _ _)
  | xlatToStd =>
    rw [commandBody, xlatToStd_eq]
    exact codeOf_check Engine.strInTooLong_iff fun _ => (codeOf_map _ _).trans (codeOf_translate _ _ _)
  | saltGen rng =>
    cases rng with
    | false =>
      rw [checkOrder, if_neg nofun, ← costError_getD]
      exact codeOf_saltGenFrom e
    | true =>
      refine codeOf_check (by simp) fun _ => ?_
      rw [← costError_getD]
      cases h : costError e.cost with
      | some code => rfl
      | none => exact (codeOf_saltGenFrom e.drawSalt).trans (by rw [Engine.drawSalt_cost, h])
  | saltParse =>
    rw [commandBody, saltParse_eq]
    exact codeOf_check Engine.strInTooLong_iff fun _ => (codeOf_map _ _).trans (codeOf_parseSalt _)
  | bcHash =>
    rw [commandBody, bcHash_eq]
    exact codeOf_check Engine.keyTooLong_iff fun _ => codeOf_check Engine.strInTooLong_iff fun _ =>
      (codeOf_map _ _).trans (codeOf_hashString _ _)
  | bcCheck =>
    rw [commandBody, bcCheck_eq]
    exact codeOf_check Engine.keyTooLong_iff fun _ => codeOf_check Engine.strInTooLong_iff fun _ =>
      (codeOf_map _ _).trans (codeOf_hashString _ _)

/-- Settles O22: every command completes its body, and ERR is the code of what the body gave. -/
theorem firstFailingCheckIsReported : Obligations.FirstFailingCheckIsReported := by
  intro i s
  obtain ⟨t, ht⟩ := complete_next s (commandBody i s.eng)
  refine ⟨t, (exec_eq_complete i s).trans ht, ?_⟩
  rw [complete_err ht, resultCode_eq_codeOf, codeOf_commandBody]

end Sys2Proof.Machine
end

section
/-! PROOF. A pending command completes, or is aborted by a reset, in time (70_reset_and_hazards.md R341). -/

namespace Sys2Proof.Machine

/-! ## The step, by the turn that is taken -/

theorem step_engine {s : State} {rest : List Turn} (h : s.turns = .engine :: rest) :
    step s = engineTurn { s with turns := rest } := by
  simp only [step, popTurn_cons h]

theorem step_host {s : State} {k : Nat} {rest : List Turn} (h : s.turns = .host k :: rest) :
    step s = hostTurn k { s with turns := rest } := by
  simp only [step, popTurn_cons h]

theorem step_reset {s : State} {rest : List Turn} (h : s.turns = .reset :: rest) :
    step s = .next (resetTurn { s with turns := rest }) := by
  simp only [step, popTurn_cons h]

/-- With no choice listed a pending completion is taken (log 5). -/
theorem step_pending_nil {s : State} (h : s.turns = []) (hp : s.eng.pend ≠ none) : step s = engineTurn s := by
  have hturn : defaultTurn s = .engine := if_pos (Engine.busy_eq_true.2 hp)
  simp only [step, popTurn_nil h, hturn]

theorem hostTurn_turns {k : Nat} {s t : State} (h : hostTurn k s = .next t) : t.turns = s.turns := by
  obtain rfl | ⟨a, line, x, -, -, -, rfl⟩ := hostTurn_next h <;> rfl

/-! ## Bounded runs -/

/-- Some run of at most `n` steps from `s` ends in a state with `P`. -/
def ReachesWithin (n : Nat) (s : State) (P : State → Prop) : Prop :=
  ∃ k t, k ≤ n ∧ Host.Core.run core k s = .next t ∧ P t

/-- A host program stops the run from `s` within `n` steps. -/
def StopsWithin (n : Nat) (s : State) : Prop :=
  ∃ k, k ≤ n ∧ ((∃ r, Host.Core.run core k s = .fault r) ∨ ∃ r, Host.Core.run core k s = .refused r)

section
variable {n : Nat} {s t : State} {P Q : State → Prop}

theorem ReachesWithin.refl (h : P s) : ReachesWithin n s P := ⟨0, s, Nat.zero_le n, rfl, h⟩

theorem ReachesWithin.after_step (hs : step s = .next t) (h : ReachesWithin n t P) : ReachesWithin (n + 1) s P := by
  obtain ⟨k, u, hk, hr, hu⟩ := h
  exact ⟨k + 1, u, Nat.succ_le_succ hk, (run_succ hs).trans hr, hu⟩

theorem ReachesWithin.imp (hPQ : ∀ t, P t → Q t) (h : ReachesWithin n s P) : ReachesWithin n s Q := by
  obtain ⟨k, t, hk, hr, ht⟩ := h
  exact ⟨k, t, hk, hr, hPQ t ht⟩

theorem StopsWithin.after_step (hs : step s = .next t) (h : StopsWithin n t) : StopsWithin (n + 1) s := by
  obtain ⟨k, hk, h⟩ := h
  refine ⟨k + 1, Nat.succ_le_succ hk, ?_⟩
  rw [run_succ hs]
  exact h

theorem StopsWithin.of_fault {r : Fault} (hs : step s = .fault r) : StopsWithin (n + 1) s :=
  ⟨1, Nat.le_add_left 1 n, .inl ⟨r, by simp only [Host.Core.run, core, hs]⟩⟩

theorem StopsWithin.of_refused {r : Refusal} (hs : step s = .refused r) : StopsWithin (n + 1) s :=
  ⟨1, Nat.le_add_left 1 n, .inr ⟨r, by simp only [Host.Core.run, core, hs]⟩⟩

end

/-! ## The end of the pending command -/

/-- The command pending in `s` has ended in `t`: it has completed, unless a reset is among the choices of `s`. -/
def CommandEnded (s t : State) : Prop :=
  t.eng.pend = none ∧ (.reset ∉ s.turns → t.eng.done = true ∧ t.eng.lastOp = s.eng.lastOp)

theorem engineTurn_ends {s : State} (hp : s.eng.pend ≠ none) : ∃ t, engineTurn s = .next t ∧ CommandEnded s t := by
  obtain ⟨-, hpending, -⟩ := everyCommandCompletes
  obtain ⟨t, ht, hnone, -, hdone, hop, -⟩ := hpending s hp
  exact ⟨t, ht, hnone, fun _ => ⟨hdone, hop⟩⟩

/-- A host's turn that leaves the command pending leaves its end to the state after it. -/
theorem CommandEnded.before_host {s t u : State} {k : Nat} (hturns : s.turns = .host k :: t.turns)
    (hop : t.eng.lastOp = s.eng.lastOp) (h : CommandEnded t u) : CommandEnded s u := by
  obtain ⟨hnone, hcompleted⟩ := h
  refine ⟨hnone, fun hreset => ?_⟩
  rw [hturns, List.mem_cons, not_or] at hreset
  rw [← hop]
  exact hcompleted hreset.2

/-- By induction on the listed choices: the engine's turn completes the command, a reset aborts it, a host's turn
keeps it pending or stops the run, and with no choice left the engine's turn is the default one. -/
theorem pending_ends_or_stops {s : State} (hp : s.eng.pend ≠ none) :
    ReachesWithin (s.turns.length + 1) s (CommandEnded s) ∨ StopsWithin s.turns.length s := by
  induction hturns : s.turns generalizing s with
  | nil =>
    obtain ⟨t, ht, hend⟩ := engineTurn_ends hp
    exact .inl (.after_step ((step_pending_nil hturns hp).trans ht) (.refl hend))
  | cons turn rest ih =>
    cases turn with
    | engine =>
      obtain ⟨t, ht, hnone, hcompleted⟩ := engineTurn_ends (s := { s with turns := rest }) hp
      have hend : CommandEnded s t :=
        ⟨hnone, fun hreset => hcompleted fun hmem => hreset (hturns ▸ List.mem_cons_of_mem _ hmem)⟩
      exact .inl (.after_step ((step_engine hturns).trans ht) (.refl hend))
    | reset =>
      exact .inl (.after_step (step_reset hturns)
        (.refl ⟨rfl, fun hreset => absurd (hturns ▸ List.mem_cons_self) hreset⟩))
    | host k =>
      have hstep := step_host hturns
      cases ht : hostTurn k { s with turns := rest } with
      | fault r => exact .inr (.of_fault (hstep.trans ht))
      | refused r => exact .inr (.of_refused (hstep.trans ht))
      | next t =>
        have hsame : SameButPort s.eng t.eng := hostTurn_sameButPort (s := { s with turns := rest }) hp ht
        have hpend : t.eng.pend ≠ none := by rw [hsame]; exact hp
        have hop : t.eng.lastOp = s.eng.lastOp := by rw [hsame]
        have hrest : t.turns = rest := hostTurn_turns ht
        rcases ih hpend hrest with hreach | hstop
        · exact .inl (.after_step (hstep.trans ht)
            (hreach.imp fun u => CommandEnded.before_host (hrest ▸ hturns) hop))
        · exact .inr (hstop.after_step (hstep.trans ht))

/-- Settles O18: an idle engine has nothing to wait for, and a pending command ends within the bound. -/
theorem pendingCommandCompletesInTime : Obligations.PendingCommandCompletesInTime := by
  refine ⟨fun s => ?_, fun s hp hreset => ?_⟩
  · by_cases hp : s.eng.pend = none
    · exact .inl (ReachesWithin.refl (P := fun t => t.eng.pend = none) hp)
    · exact (pending_ends_or_stops hp).imp_left (ReachesWithin.imp fun _ ⟨hnone, _⟩ => hnone)
  · exact (pending_ends_or_stops hp).imp_left (ReachesWithin.imp fun _ ⟨hnone, hcompleted⟩ => ⟨hnone, hcompleted hreset⟩)

end Sys2Proof.Machine
end

section
/-! PROOF. RESET and the machine right after it (70_reset_and_hazards.md R320 to R323). -/

namespace Sys2Proof.Machine

/-! ## The window after a reset -/

theorem loadWord_zero (cap k : Nat) : loadWord (Vector.replicate cap 0) k = 0#32 := by
  have hbyte (i : Nat) : byteAt (Vector.replicate cap 0) i = 0#8 := by
    rw [byteAt_eq_getD, Vector.toList_replicate, List.getD_eq_getElem?_getD, List.getElem?_replicate]
    split <;> rfl
  rw [loadWord, hbyte, hbyte, hbyte, hbyte]
  rfl

theorem statusWord_applyReset (e : Engine) : e.applyReset.statusWord = 0#32 :=
  calc e.applyReset.statusWord = Engine.reset.statusWord := rfl
    _ = 0#32 := by decide

/-- After a reset every row of the register map but ID loads 0 (10_state.md R40; R320). -/
theorem load_applyReset (e : Engine) {t : Target} (ht : t ≠ .id) : e.applyReset.load t = 0#32 := by
  cases t with
  | id => exact absurd rfl ht
  | keyWord k => exact loadWord_zero 72 k
  | saltWord k => exact loadWord_zero 16 k
  | digestWord k => exact loadWord_zero 24 k
  | bytesWord k => exact loadWord_zero 48 k
  | strInWord k => exact loadWord_zero 64 k
  | strOutWord k => exact loadWord_zero 64 k
  | status => exact statusWord_applyReset e
  | cmd | dataL | dataR | cost | minor | keyLen | strInLen | strOutLen | bytesLen | costCtr | pWord | sWord
  | reserved => rfl

/-- ID is what an access reaches at offset 0 alone. -/
theorem targetOf_wordOffset_id {addr : Nat} : targetOf (wordOffset addr) = .id ↔ wordOffset addr = 0 := by
  obtain ⟨hw, hl⟩ := wordOffset_word addr
  apply targetOf_rows (P := fun t => t = .id ↔ wordOffset addr = 0) _ hw hl
  case id => exact fun h => iff_of_true rfl h
  all_goals exact fun h => iff_of_false nofun (by omega)

/-- After a reset ID reads BCRY and every other address 0, with no side effect. -/
theorem memRead_applyReset (e : Engine) (addr : Nat) : e.applyReset.memRead addr =
    (if wordOffset addr = 0 then 0x42435259#32 else 0#32, e.applyReset) := by
  rw [memRead_idle (Engine.applyReset_pend e) rfl]
  split
  · rw [targetOf_wordOffset_id.2 ‹_›]; rfl
  · rw [load_applyReset e (mt targetOf_wordOffset_id.1 ‹_›)]

theorem Engine.applyReset_reset : Engine.reset.applyReset = Engine.reset := rfl

/-! ## Commands on the reset values -/

/-- A command that reads P and S fails on an engine whose STATE_VALID and KEY_LEN a reset has cleared. -/
theorem checkOrder_applyReset (e : Engine) :
    ∀ i ∈ [Instr.bfEncrypt, .eksExpandSk, .eksExpandK, .eksExpandS, .bcDigest],
      checkOrder i e.applyReset = .stateNotInitialized := by
  simp only [List.forall_mem_cons, List.not_mem_nil, false_imp_iff, implies_true, and_true]
  exact ⟨rfl, rfl, rfl, rfl, rfl⟩

/-- A command reports what its row of R285 gives. -/
theorem exec_reports {i : Instr} {s : State} {code : ErrorCode} (h : checkOrder i s.eng = code) :
    ∃ t, exec i s = .next t ∧ t.eng.err = code := h ▸ firstFailingCheckIsReported i s

/-- Settles O19: the step is `applyReset` on the engine, whose rows and checks are those of the reset values. -/
theorem resetClearsTheInstance : Obligations.ResetClearsTheInstance := fun s _ h =>
  ⟨_, step_reset h, rfl, rfl, rfl, statusWord_applyReset s.eng, memRead_applyReset s.eng,
    fun i hi => exec_reports (checkOrder_applyReset s.eng i hi)⟩

/-- Settles O20: the reset engine is its own reset, with cost 0 and an empty string as operands. -/
theorem resetStateReadsZero : Obligations.ResetStateReadsZero :=
  ⟨rfl, rfl, fun addr => congrArg Prod.fst (memRead_applyReset Engine.reset addr), exec_reports rfl, exec_reports rfl,
    exec_reports rfl, exec_reports rfl, exec_reports rfl⟩

end Sys2Proof.Machine
end

section
/-! PROOF. The words of the opcode map decode to their commands (30_encoding.md R100 to R103). -/

namespace Sys2Proof.Machine

/-- A command's word decodes to the command (R100, R102). -/
theorem decode_encode (i : Instr) : decode (encode i) = .ok i := by
  cases i with
  | saltGen rng => cases rng <;> rfl
  | _ => rfl

theorem decodeTableWord_of_ok {nbits w : Nat} {i : Instr} (h : decode (tableWord nbits w) = .ok i) :
    decodeTableWord nbits w = some i := by
  rw [decodeTableWord, h]

theorem decodeTableWord_of_error {nbits w : Nat} {r : DecodeReject} (h : decode (tableWord nbits w) = .error r) :
    decodeTableWord nbits w = none := by
  rw [decodeTableWord, h]

/-- A word of the table that is a command's word is read as that command. -/
theorem decodeTableWord_of_encode {nbits w : Nat} {i : Instr} (h : encode i = tableWord nbits w) :
    decodeTableWord nbits w = some i :=
  decodeTableWord_of_ok (h ▸ decode_encode i)

/-- Settles O3: six words are their commands' encodings; the others have no opcode of R102, RNG on a command that
does not take it, and a reserved bit. -/
theorem tableWordsDecode : Obligations.TableWordsDecode :=
  ⟨decodeTableWord_of_encode rfl, decodeTableWord_of_encode rfl, decodeTableWord_of_encode rfl,
    decodeTableWord_of_encode rfl, decodeTableWord_of_encode rfl, decodeTableWord_of_encode rfl,
    decodeTableWord_of_error (r := .unknownOpcode) rfl, decodeTableWord_of_error (r := .rngNotAllowed) rfl,
    decodeTableWord_of_error (r := .reservedBits) rfl⟩

end Sys2Proof.Machine
end

section
/-! PROOF. Encrypt is a bijection on blocks (40_blowfish.md R141 to R143). -/

namespace Sys2Proof.Machine

/-- The inverse of a Feistel round: the right half it leaves is the whitened left half, which F reads again. -/
def CipherState.unround (c : CipherState) (i : Fin 16) (lr : Word × Word) : Word × Word :=
  (lr.2 ^^^ c.p[i.val], lr.1 ^^^ c.f lr.2)

theorem CipherState.unround_round (c : CipherState) (i : Fin 16) :
    Function.LeftInverse (c.unround i) (c.round i) := by
  rintro ⟨l, r⟩
  rw [CipherState.round_eq]
  simp only [CipherState.unround, BitVec.xor_assoc, BitVec.xor_self, BitVec.xor_zero]

theorem CipherState.round_unround (c : CipherState) (i : Fin 16) :
    Function.RightInverse (c.unround i) (c.round i) := by
  rintro ⟨l, r⟩
  simp only [CipherState.unround, CipherState.round_eq, BitVec.xor_assoc, BitVec.xor_self, BitVec.xor_zero]

theorem CipherState.round_bijective (c : CipherState) (i : Fin 16) : Function.Bijective (c.round i) :=
  Function.bijective_iff_has_inverse.2 ⟨c.unround i, c.unround_round i, c.round_unround i⟩

/-- A fold whose every step is a bijection of the accumulator is one. -/
theorem foldl_bijective {α β : Type} {f : α → β → α} (hf : ∀ b, Function.Bijective fun a => f a b) (bs : List β) :
    Function.Bijective fun a => bs.foldl f a := by
  induction bs with
  | nil => exact Function.bijective_id
  | cons b bs ih => exact ih.comp (hf b)

/-- XOR with a fixed word is its own inverse. -/
theorem xor_const_bijective (k : Word) : Function.Bijective fun x : Word => x ^^^ k :=
  Function.Involutive.bijective fun x => by rw [BitVec.xor_assoc, BitVec.xor_self, BitVec.xor_zero]

/-- What Encrypt does after its rounds (R142): the half-swap, and a subkey XORed into each half. -/
theorem swap_xor_bijective (j k : Word) :
    Function.Bijective fun x : Word × Word => (x.2 ^^^ j, x.1 ^^^ k) :=
  ((xor_const_bijective j).prodMap (xor_const_bijective k)).comp Prod.swap_bijective

/-- Settles O28: the 16 rounds are bijections, and so is the output step after them. -/
theorem encryptIsABijection : Obligations.EncryptIsABijection := fun c =>
  (swap_xor_bijective c.p[17] c.p[16]).comp (foldl_bijective c.round_bijective (List.finRange 16))

end Sys2Proof.Machine
end

section
/-! PROOF. Decoding and encoding are inverse, and the legal words (30_encoding.md R100 to R103). -/

namespace Sys2Proof.Machine

/-! ## The fields of a word (30_encoding.md R100) -/

theorem extractLsb'_one (w : Word) (n : Nat) : w.extractLsb' n 1 = BitVec.ofBool (w.getLsbD n) := by
  ext i hi
  obtain rfl : i = 0 := by omega
  simp

theorem rngField_eq (w : Word) : rngField w = w.getLsbD 8 := by
  rw [rngField, extractLsb'_one]
  cases w.getLsbD 8 <;> rfl

/-- A word is its three fields put together, RES first. -/
theorem append_fields (w : Word) : resField w ++ BitVec.ofBool (rngField w) ++ opField w = w := by
  have hjoin (n k m : Nat) : w.extractLsb' (n + m) k ++ w.extractLsb' n m = w.extractLsb' n (k + m) :=
    BitVec.extractLsb'_append_extractLsb'_eq_extractLsb' rfl
  rw [rngField_eq, ← extractLsb'_one, resField, hjoin 8 23 1, opField, hjoin 0 24 8, BitVec.extractLsb'_eq_self]

/-! ## What decodes -/

/-- All decoding asks of a word: no reserved bit, an opcode of the map, and RNG on SALT_GEN alone. -/
theorem decode_ok_iff {w : Word} {i : Instr} : decode w = .ok i ↔ resField w = 0#23 ∧
    instrOfOpcode (opField w) (rngField w) = some i ∧ (rngField w = true → i = .saltGen true) := by
  unfold decode
  split
  · rename_i hres
    exact iff_of_false nofun fun ⟨h, _⟩ => hres h
  · rename_i hres
    cases instrOfOpcode (opField w) (rngField w) with
    | none => simp
    | some j =>
      dsimp only
      split
      · rename_i hrng
        refine iff_of_false nofun ?_
        rintro ⟨-, ⟨rfl⟩, hsalt⟩
        exact hrng.2 (hsalt hrng.1)
      · rename_i hrng
        have hsalt (ht : rngField w = true) : j = .saltGen true := by_contra fun hne => hrng ⟨ht, hne⟩
        constructor
        · rintro ⟨⟩
          exact ⟨not_not.1 hres, rfl, hsalt⟩
        · rintro ⟨-, ⟨⟩, -⟩
          rfl

/-- The opcode map hands the RNG bit to SALT_GEN. -/
theorem instrOfOpcode_saltGen {op : Byte} {rng r : Bool} (h : instrOfOpcode op rng = some (.saltGen r)) : rng = r := by
  unfold instrOfOpcode at h
  split at h <;> simp_all

theorem instrOfOpcode_isSome : ∀ op ∈ opcodes, ∀ rng, (instrOfOpcode op rng).isSome = true := by decide

theorem rngField_of_decode {w : Word} {i : Instr} (h : decode w = .ok i) :
    rngField w = true ↔ i = .saltGen true := by
  obtain ⟨-, hop, hrng⟩ := decode_ok_iff.1 h
  exact ⟨hrng, fun hi => instrOfOpcode_saltGen (hi ▸ hop)⟩

theorem rngBit_eq (i : Instr) : i.rngBit = BitVec.ofBool (decide (i = .saltGen true)) := by
  cases i with
  | saltGen rng => cases rng <;> rfl
  | _ => rfl

/-- A word that decodes is its command's word: its fields are those of the encoding. -/
theorem encode_of_decode {w : Word} {i : Instr} (h : decode w = .ok i) : encode i = w := by
  have hrng : rngField w = decide (i = .saltGen true) :=
    Bool.eq_iff_iff.2 ((rngField_of_decode h).trans decide_eq_true_iff.symm)
  obtain ⟨hres, -⟩ := decode_ok_iff.1 h
  rw [encode, rngBit_eq, ← hrng, ← hres, ← opField_of_decode h, append_fields]

/-- Settles O1: a word that decodes is put together again from its fields, and a command's word decodes to it. -/
theorem decodeExactlyEncodings : Obligations.DecodeExactlyEncodings :=
  fun _ i => ⟨encode_of_decode, fun h => h ▸ decode_encode i⟩

/-! ## The legal words -/

theorem wellFormedOn_iff {hasRng : Bool} {i : Instr} :
    i.wellFormedOn hasRng = true ↔ (i = .saltGen true → hasRng = true) := by
  cases i with
  | saltGen rng => cases rng <;> simp [Instr.wellFormedOn]
  | _ => simp [Instr.wellFormedOn]

theorem opcode_mem_opcodes (i : Instr) : i.opcode ∈ opcodes := by
  cases i with
  | saltGen rng => show 0x24#8 ∈ opcodes; decide
  | _ => decide

/-- The legal words of an implementation are those that decode to a command it has (R103). -/
theorem legalWord_iff_decode {hasRng : Bool} {w : Word} :
    LegalWord hasRng w ↔ ∃ i, decode w = .ok i ∧ i.wellFormedOn hasRng = true := by
  rw [LegalWord, ← rngField_eq]
  constructor
  · rintro ⟨hop, hres, hrng⟩
    obtain ⟨i, hi⟩ := Option.isSome_iff_exists.1 (instrOfOpcode_isSome _ hop (rngField w))
    refine ⟨i, decode_ok_iff.2 ⟨hres, hi, fun ht => ?_⟩, wellFormedOn_iff.2 fun hsalt => ?_⟩
    · obtain ⟨hop24, -⟩ := hrng.resolve_left (by simp [ht])
      rw [hop24, ht] at hi
      exact (Option.some.inj hi).symm
    · have ht : rngField w = true := instrOfOpcode_saltGen (hsalt ▸ hi)
      exact (hrng.resolve_left (by simp [ht])).2
  · rintro ⟨i, hdec, hwf⟩
    obtain ⟨hres, -⟩ := decode_ok_iff.1 hdec
    have hop : w.extractLsb' 0 8 = i.opcode := opField_of_decode hdec
    refine ⟨hop.symm ▸ opcode_mem_opcodes i, hres, ?_⟩
    cases ht : rngField w with
    | false => exact .inl rfl
    | true =>
      obtain rfl := (rngField_of_decode hdec).1 ht
      exact .inr ⟨hop, wellFormedOn_iff.1 hwf rfl⟩

theorem legalWord_iff_encode {hasRng : Bool} {w : Word} :
    LegalWord hasRng w ↔ ∃ i, encode i = w ∧ (i = .saltGen true → hasRng = true) := by
  simp only [legalWord_iff_decode, wellFormedOn_iff, decodeExactlyEncodings w]

/-- Every command, in the order of the opcode map, with both forms of SALT_GEN (R102). -/
def commands : List Instr :=
  [.bfInit, .bfEncrypt, .bfDiscard, .eksExpandSk, .eksExpandK, .eksExpandS, .eksSetup, .r64Encode, .r64Decode,
    .xlatToBcrypt, .xlatToStd, .saltGen false, .saltGen true, .saltParse, .bcDigest, .bcHash, .bcCheck]

theorem mem_commands (i : Instr) : i ∈ commands := by
  cases i with
  | saltGen rng => cases rng <;> decide
  | _ => decide

/-- With a random-byte port the legal words are the words of all commands. -/
theorem legalWord_true_iff {w : Word} : LegalWord true w ↔ w ∈ commands.map encode := by
  simp [legalWord_iff_encode, mem_commands]

/-- Without one, the word of SALT_GEN with RNG = 1 is not legal. -/
theorem legalWord_false_iff {w : Word} : LegalWord false w ↔ LegalWord true w ∧ w ≠ encode (.saltGen true) := by
  simp only [legalWord_iff_encode, implies_true, and_true, Bool.false_eq_true, imp_false]
  constructor
  · rintro ⟨i, rfl, hi⟩
    refine ⟨⟨i, rfl⟩, fun h => hi ?_⟩
    exact Except.ok.inj ((decode_encode i).symm.trans (h ▸ decode_encode _))
  · rintro ⟨⟨i, rfl⟩, hne⟩
    exact ⟨i, rfl, fun hi => hne (hi ▸ rfl)⟩

/-- Without a port, SALT_GEN with RNG = 1 ends as an illegal word does (60_exceptions.md R287). -/
theorem saltGen_noPort (e : Engine) (h : Config.hasRng = false) : saltGen true e = .error .illegalCommand := if_pos h

/-- The turn of a pending word that is not legal is the report of code 10. -/
theorem engineTurn_not_legal {s : State} {w : Word} (hp : s.eng.pend = some w) (hw : ¬ LegalWord Config.hasRng w) :
    engineTurn s = .next (raiseError .illegalCommand s) := by
  cases hdec : decode w with
  | error r => exact engineTurn_illegal hp hdec
  | ok i =>
    have hwf : ¬ (i = .saltGen true → Config.hasRng = true) := fun h =>
      hw (legalWord_iff_decode.2 ⟨i, hdec, wellFormedOn_iff.2 h⟩)
    obtain ⟨rfl, hport⟩ := Classical.not_imp.1 hwf
    rw [engineTurn_legal hp hdec, exec_eq_complete, commandBody, saltGen_noPort _ (Bool.eq_false_of_not_eq_true hport),
      complete_error]

/-- Settles O2: the legal words are the encodings, and a word that is not legal does not decode or lacks its port. -/
theorem legalWordsRunOthersEndWithCodeTen : Obligations.LegalWordsRunOthersEndWithCodeTen := by
  refine ⟨fun _ => legalWord_true_iff, fun _ => legalWord_false_iff, fun s w hp => ⟨fun hw => ?_, fun hw => ?_⟩⟩
  · obtain ⟨i, hdec, hwf⟩ := legalWord_iff_decode.1 hw
    exact ⟨i, hdec, hwf, engineTurn_legal hp hdec⟩
  · exact engineTurn_not_legal hp hw

end Sys2Proof.Machine
end

section
/-! PROOF. The translator and the alphabets (30_encoding.md R110 to R112; 42_codec.md R200, R201, R210, R211). -/

namespace Sys2Proof.Machine

/-! ## Translation, value by value -/

/-- A string over an alphabet is the string of its characters' values. -/
theorem exists_values {alpha t : List Byte} (h : ∀ c ∈ t, c ∈ alpha) :
    ∃ vs : List Nat, (∀ v ∈ vs, v < alpha.length) ∧ vs.map (charOf alpha) = t := by
  refine ⟨t.map (alpha.idxOf ·), ?_, ?_⟩
  · simpa [List.idxOf_lt_length_iff] using h
  · rw [List.map_map]
    refine (List.map_congr_left fun c hc => ?_).trans (List.map_id t)
    have hlt : alpha.idxOf c < alpha.length := List.idxOf_lt_length_iff.2 (h c hc)
    simp [charOf, List.getD_eq_getElem?_getD, List.getElem?_eq_getElem hlt]

/-- A translation writes the characters of the same values (R112). -/
theorem translate_map {src dst : List Byte} (hn : src.Nodup) {vs : List Nat} (h : ∀ v ∈ vs, v < src.length) :
    translate src dst (vs.map (charOf src)) = .ok (vs.map (charOf dst)) := by
  induction vs with
  | nil => rfl
  | cons v vs ih =>
    obtain ⟨hv, hvs⟩ := List.forall_mem_cons.1 h
    simp only [List.map_cons, translate, valueIn_charOf hn hv, ih hvs]

/-- Translations between two alphabets of one length are inverse on the strings over the first. -/
theorem translate_inverse {src dst t : List Byte} (hs : src.Nodup) (hd : dst.Nodup) (hlen : src.length = dst.length)
    (h : ∀ c ∈ t, c ∈ src) : ∃ u, translate src dst t = .ok u ∧ translate dst src u = .ok t := by
  obtain ⟨vs, hvs, rfl⟩ := exists_values h
  exact ⟨_, translate_map hs hvs, translate_map hd (hlen ▸ hvs)⟩

theorem translate_outside {src dst t : List Byte} (h : ∃ c ∈ t, c ∉ src) :
    translate src dst t = .error .r64InvalidChar := by
  have hcode := codeOf_translate src dst t
  rw [if_pos h] at hcode
  cases hu : translate src dst t with
  | ok u => rw [hu] at hcode; cases hcode
  | error code => rw [translate_error hu]

/-- Settles O37: both alphabets have 64 characters and no character twice, so translations through them are inverse. -/
theorem translationsAreInverse : Obligations.TranslationsAreInverse :=
  ⟨by decide, by decide, fun _ => translate_inverse stdAlpha_nodup bcAlpha_nodup rfl,
    fun _ => translate_inverse bcAlpha_nodup stdAlpha_nodup rfl, fun _ => translate_outside, fun _ => translate_outside⟩

/-! ## XLAT_TO_BCRYPT and XLAT_TO_STD -/

/-- The string in STR_IN, when each of its bytes is known. -/
theorem Engine.strInText_eq_map {e : Engine} {f : Nat → Byte} (hs : e.strInLen.toNat ≤ 64)
    (h : ∀ k : Fin 64, k.val < e.strInLen.toNat → e.strIn[k] = f k.val) :
    e.strInText = (List.range e.strInLen.toNat).map f := by
  refine List.ext_getElem (by simp [strInText, firstBytes_length, hs]) fun k hk _ => ?_
  have hk' : k < e.strInLen.toNat ∧ k < 64 := by simpa [strInText, firstBytes_length] using hk
  simpa [strInText, firstBytes] using h ⟨k, hk'.2⟩ hk'.1

/-- A command whose result is the engine `e` with `out` in STR_OUT: the bytes of `out`, and zero after them
(10_state.md R33). -/
theorem exec_putStrOut {i : Instr} {s : State} {e : Engine} {out : List Byte}
    (h : commandBody i s.eng = .ok (e.putStrOut out)) :
    ∃ t, exec i s = .next t ∧
      t = { s with eng := { e with strOut := t.eng.strOut, strOutLen := BitVec.ofNat 8 out.length
                                   pend := none, done := true, err := .none } } ∧
      ∀ k : Fin 64, t.eng.strOut[k] = out.getD k.val 0 :=
  ⟨_, by rw [exec_eq_complete, h, complete_ok], rfl, fun k => padTo_getElem 64 out k k.isLt⟩

/-- A command that translates STR_IN, on a string given by its characters' values. -/
theorem exec_translation {i : Instr} {s : State} {src dst : List Byte} {v : Nat → Nat}
    (hbody : commandBody i s.eng = if s.eng.strInTooLong 64 then .error .boundedLengthExceeded
      else (translate src dst s.eng.strInText).map s.eng.putStrOut)
    (hn : src.Nodup) (hlen : src.length = 64) (hs : s.eng.strInLen.toNat ≤ 64)
    (hv : ∀ k : Fin 64, k.val < s.eng.strInLen.toNat → v k.val < 64)
    (hchar : ∀ k : Fin 64, k.val < s.eng.strInLen.toNat → s.eng.strIn[k] = src.getD (v k.val) 0) :
    ∃ t, exec i s = .next t ∧
      t = { s with eng := { s.eng with strOut := t.eng.strOut, strOutLen := s.eng.strInLen
                                       pend := none, done := true, err := .none } } ∧
      ∀ k : Fin 64, t.eng.strOut[k] = if k.val < s.eng.strInLen.toNat then dst.getD (v k.val) 0 else 0#8 := by
  have htext : s.eng.strInText = ((List.range s.eng.strInLen.toNat).map v).map (charOf src) := by
    rw [List.map_map]
    exact Engine.strInText_eq_map hs hchar
  have hvalues : ∀ x ∈ (List.range s.eng.strInLen.toNat).map v, x < src.length := by
    simpa [hlen] using fun k hk => hv ⟨k, by omega⟩ hk
  rw [Engine.strInTooLong_eq_false.2 hs, htext, translate_map hn hvalues] at hbody
  obtain ⟨t, ht, heq, hbytes⟩ := exec_putStrOut hbody
  refine ⟨t, ht, by simpa using heq, fun k => ?_⟩
  rw [hbytes]
  by_cases hk : k.val < s.eng.strInLen.toNat
  · simp [hk, charOf, List.getD_eq_getElem?_getD]
  · simp [hk, List.getD_eq_getElem?_getD]

/-- Settles O38: the string in STR_IN is that of the values, and its translation that of the same values. -/
theorem translateCommandsMapIndexByIndex : Obligations.TranslateCommandsMapIndexByIndex := fun s _ hs hv =>
  ⟨exec_translation (xlatToBcrypt_eq s.eng) stdAlpha_nodup stdAlpha_length hs hv,
    exec_translation (xlatToStd_eq s.eng) bcAlpha_nodup bcAlpha_length hs hv⟩

end Sys2Proof.Machine
end

section
/-! PROOF. The lengths and the bit layout of radix-64 (30_encoding.md R113, R114; 42_codec.md R202, R203, R212,
R213). -/

namespace Sys2Proof.Machine

/-! ## Lengths -/

theorem r64Decode_length {t b : List Byte} (h : r64Decode t = .ok b) : t.length % 4 ≠ 1 ∧ b.length =
    3 * (t.length / 4) + (if t.length % 4 = 0 then 0 else if t.length % 4 = 2 then 1 else 2) := by
  obtain ⟨hlen, vs, hvs, rfl⟩ := r64Decode_ok h
  refine ⟨hlen, ?_⟩
  rw [decodeGroups_length, (bcValues_some hvs).1]
  split_ifs <;> omega

/-- Settles O36: the lengths of the two recursions, and the length check that comes first. -/
theorem radixLengths : Obligations.RadixLengths :=
  ⟨r64Encode_length, fun _ _ => r64Decode_length, fun _ h => if_pos h,
    fun b h => (r64Encode_length b).trans (by rw [h]; rfl), fun b h => (r64Encode_length b).trans (by rw [h]; rfl)⟩

/-! ## Encoding, group by group -/

theorem getD_drop {α : Type} (l : List α) (n k : Nat) (d : α) : (l.drop n).getD k d = l.getD (n + k) d := by
  simp [List.getD_eq_getElem?_getD]

/-- Dropping whole groups of bytes drops their characters. -/
theorem r64Encode_drop (b : List Byte) (g : Nat) : r64Encode (b.drop (3 * g)) = (r64Encode b).drop (4 * g) := by
  induction g generalizing b with
  | zero => rfl
  | succ g ih =>
    match b with
    | [] => simp [r64Encode]
    | [_] => simp [r64Encode, Nat.mul_add]
    | [_, _] => simp [r64Encode, Nat.mul_add]
    | _ :: _ :: _ :: rest => simpa [r64Encode, Nat.mul_add] using ih rest

/-! The three group lengths (R113, R202). The group's 24 bits are named `v`, so that no proof term compares sums of
products by unfolding them. -/

theorem r64Encode_one {b0 : Byte} {v : Nat} (hv : v = b0.toNat * 2 ^ 16) :
    r64Encode [b0] = [groupChar v 18, groupChar v 12] := by
  rw [r64Encode, ← hv]

theorem r64Encode_two {b0 b1 : Byte} {v : Nat} (hv : v = b0.toNat * 2 ^ 16 + b1.toNat * 2 ^ 8) :
    r64Encode [b0, b1] = [groupChar v 18, groupChar v 12, groupChar v 6] := by
  rw [r64Encode, ← hv]

theorem r64Encode_three {b0 b1 b2 : Byte} {v : Nat} (rest : List Byte)
    (hv : v = b0.toNat * 2 ^ 16 + b1.toNat * 2 ^ 8 + b2.toNat) : r64Encode (b0 :: b1 :: b2 :: rest) =
      groupChar v 18 :: groupChar v 12 :: groupChar v 6 :: groupChar v 0 :: r64Encode rest := by
  rw [r64Encode, ← hv]

/-- The characters of the first group, missing bytes 0. -/
theorem r64Encode_firstGroup {b : List Byte} {b0 b1 b2 : Byte} {v : Nat} (h0 : b.getD 0 0 = b0) (h1 : b.getD 1 0 = b1)
    (h2 : b.getD 2 0 = b2) (hv : v = b0.toNat * 2 ^ 16 + b1.toNat * 2 ^ 8 + b2.toNat) :
    (0 < b.length → (r64Encode b).getD 0 0 = groupChar v 18 ∧ (r64Encode b).getD 1 0 = groupChar v 12) ∧
    (1 < b.length → (r64Encode b).getD 2 0 = groupChar v 6) ∧
    (2 < b.length → (r64Encode b).getD 3 0 = groupChar v 0) := by
  match b with
  | [] => simp
  | [x] =>
    obtain rfl : x = b0 := h0
    have h1' : b1.toNat = 0 := h1 ▸ rfl
    have h2' : b2.toNat = 0 := h2 ▸ rfl
    have henc : r64Encode [x] = _ := r64Encode_one (v := v) (by rw [hv, h1', h2', Nat.zero_mul, Nat.add_zero])
    simp [henc]
  | [x, y] =>
    obtain ⟨rfl, rfl⟩ : x = b0 ∧ y = b1 := ⟨h0, h1⟩
    have h2' : b2.toNat = 0 := h2 ▸ rfl
    have henc : r64Encode [x, y] = _ := r64Encode_two (v := v) (by rw [hv, h2', Nat.add_zero])
    simp [henc]
  | x :: y :: z :: rest =>
    obtain ⟨rfl, rfl, rfl⟩ : x = b0 ∧ y = b1 ∧ z = b2 := ⟨h0, h1, h2⟩
    simp [r64Encode_three rest hv]

theorem r64Encode_group {b : List Byte} {g v : Nat}
    (hv : v = (b.getD (3 * g) 0).toNat * 2 ^ 16 + (b.getD (3 * g + 1) 0).toNat * 2 ^ 8 + (b.getD (3 * g + 2) 0).toNat) :
    (3 * g < b.length → (r64Encode b).getD (4 * g) 0 = groupChar v 18 ∧
      (r64Encode b).getD (4 * g + 1) 0 = groupChar v 12) ∧
    (3 * g + 1 < b.length → (r64Encode b).getD (4 * g + 2) 0 = groupChar v 6) ∧
    (3 * g + 2 < b.length → (r64Encode b).getD (4 * g + 3) 0 = groupChar v 0) := by
  have hfirst := r64Encode_firstGroup (getD_drop b (3 * g) 0 0) (getD_drop b (3 * g) 1 0) (getD_drop b (3 * g) 2 0) hv
  simp only [r64Encode_drop, getD_drop, Nat.add_zero, List.length_drop] at hfirst
  obtain ⟨h1, h2, h3⟩ := hfirst
  exact ⟨fun h => h1 (by omega), fun h => h2 (by omega), fun h => h3 (by omega)⟩

theorem r64EncodeCmd_of_le {e : Engine} (h : e.bytesLen.toNat ≤ 48) :
    r64EncodeCmd e = .ok (e.putStrOut (r64Encode e.bytesText)) :=
  if_neg (by simpa [Engine.bytesTooLong] using h)

/-- Settles O39: a group of an encoding is the first group of the encoding of the bytes from there on. -/
theorem encodeCommandFillsStrOut : Obligations.EncodeCommandFillsStrOut := by
  refine ⟨fun b g v hv => ?_, fun s hs => ?_⟩
  · obtain ⟨h1, h2, h3⟩ := r64Encode_group hv
    refine ⟨h1, h2, fun h => (h3 h).trans (groupChar_eq (by simp)), ?_, ?_, ?_⟩ <;>
      (intro h; rw [r64Encode_length]; split_ifs <;> omega)
  · obtain ⟨t, ht, heq, hbytes⟩ := exec_putStrOut (i := .r64Encode) (r64EncodeCmd_of_le hs)
    have hlen : t.eng.strOutLen = BitVec.ofNat 8 (r64Encode s.eng.bytesText).length := by rw [heq]
    refine ⟨t, ht, hlen ▸ heq, ?_, hbytes⟩
    have hb := s.eng.bytesText_length_le
    have hr := r64Encode_length_le s.eng.bytesText
    rw [hlen, BitVec.toNat_ofNat]
    exact Nat.mod_eq_of_lt (by omega)

/-! ## Decoding, group by group -/

/-- Dropping whole groups of characters drops their bytes. -/
theorem decodeGroups_drop (vs : List Nat) (g : Nat) :
    decodeGroups (vs.drop (4 * g)) = (decodeGroups vs).drop (3 * g) := by
  induction g generalizing vs with
  | zero => rfl
  | succ g ih =>
    match vs with
    | [] => simp [decodeGroups]
    | [_] => simp [decodeGroups, Nat.mul_add]
    | [_, _] => simp [decodeGroups, Nat.mul_add]
    | [_, _, _] => simp [decodeGroups, Nat.mul_add]
    | _ :: _ :: _ :: _ :: rest => simpa [decodeGroups, Nat.mul_add] using ih rest

/-- The bytes of the first group, missing characters 0 (R113, R203). -/
theorem decodeGroups_firstGroup {vs : List Nat} {v : Nat}
    (hv : v = vs.getD 0 0 * 2 ^ 18 + vs.getD 1 0 * 2 ^ 12 + vs.getD 2 0 * 2 ^ 6 + vs.getD 3 0) :
    (1 < vs.length → ((decodeGroups vs).getD 0 0).toNat = v / 2 ^ 16 % 256) ∧
    (2 < vs.length → ((decodeGroups vs).getD 1 0).toNat = v / 2 ^ 8 % 256) ∧
    (3 < vs.length → ((decodeGroups vs).getD 2 0).toNat = v % 256) := by
  subst hv
  match vs with
  | [] => simp
  | [_] => simp
  | [_, _] => simp [decodeGroups]
  | [_, _, _] => simp [decodeGroups]
  | _ :: _ :: _ :: _ :: rest => simp [decodeGroups]

theorem decodeGroups_group {vs : List Nat} {g v : Nat}
    (hv : v = vs.getD (4 * g) 0 * 2 ^ 18 + vs.getD (4 * g + 1) 0 * 2 ^ 12 + vs.getD (4 * g + 2) 0 * 2 ^ 6 +
      vs.getD (4 * g + 3) 0) :
    (4 * g + 1 < vs.length → ((decodeGroups vs).getD (3 * g) 0).toNat = v / 2 ^ 16 % 256) ∧
    (4 * g + 2 < vs.length → ((decodeGroups vs).getD (3 * g + 1) 0).toNat = v / 2 ^ 8 % 256) ∧
    (4 * g + 3 < vs.length → ((decodeGroups vs).getD (3 * g + 2) 0).toNat = v % 256) := by
  have hfirst := decodeGroups_firstGroup (vs := vs.drop (4 * g)) (v := v)
  simp only [decodeGroups_drop, getD_drop, Nat.add_zero, List.length_drop] at hfirst
  obtain ⟨h1, h2, h3⟩ := hfirst hv
  exact ⟨fun h => h1 (by omega), fun h => h2 (by omega), fun h => h3 (by omega)⟩

/-- Values whose characters a text has are the values it decodes by. -/
theorem bcValues_getD {t : List Byte} {vs : List Nat} {idx : Nat → Nat} (h : bcValues t = some vs)
    (hidx : ∀ k < t.length, idx k < 64 ∧ t.getD k 0 = charOf bcAlpha (idx k)) (hzero : ∀ k, t.length ≤ k → idx k = 0)
    (k : Nat) : idx k = vs.getD k 0 := by
  obtain ⟨hlen, rfl, hlt⟩ := bcValues_some h
  by_cases hk : k < vs.length
  · obtain ⟨hk64, hchar⟩ := hidx k (hlen ▸ hk)
    rw [← charOf_bcAlpha_inj hk64 (by simpa [hk] using hlt _ (List.getElem_mem hk)), ← hchar]
    simp [List.getD_eq_getElem?_getD, hk]
  · rw [hzero k (by omega), List.getD_eq_getElem?_getD, List.getElem?_eq_none (by omega), Option.getD_none]

theorem r64Decode_of_mem {t : List Byte} (hlen : t.length % 4 ≠ 1) (h : ∀ c ∈ t, c ∈ bcAlpha) :
    ∃ b, r64Decode t = .ok b := by
  cases hd : r64Decode t with
  | ok b => exact ⟨b, rfl⟩
  | error code =>
    obtain ⟨h1, -⟩ | ⟨-, ⟨c, hc, hout⟩, -⟩ := r64Decode_error hd
    · exact absurd h1 hlen
    · exact absurd (h c hc) hout

theorem Engine.strInText_length {e : Engine} (hs : e.strInLen.toNat ≤ 64) : e.strInText.length = e.strInLen.toNat :=
  (firstBytes_length _ _).trans (Nat.min_eq_left hs)

/-- Settles O40: a group of a decoding is the first group of the decoding of the characters from there on. -/
theorem decodeCommandFillsBytes : Obligations.DecodeCommandFillsBytes := by
  refine ⟨fun t b idx g v hdec hidx hzero hv => ?_, fun s hs hmod hmem => ?_⟩
  · obtain ⟨-, vs, hvs, rfl⟩ := r64Decode_ok hdec
    simp only [bcValues_getD hvs hidx hzero] at hv
    rw [← (bcValues_some hvs).1]
    obtain ⟨h1, h2, h3⟩ := decodeGroups_group hv
    refine ⟨h1, h2, h3, ?_, ?_, ?_⟩ <;> (intro h; rw [decodeGroups_length]; split_ifs <;> omega)
  · have hlen : (s.eng.strIn.toList.take s.eng.strInLen.toNat).length = s.eng.strInLen.toNat :=
      Engine.strInText_length hs
    obtain ⟨b, hb⟩ := r64Decode_of_mem (hlen.symm ▸ hmod) hmem
    have hbody : commandBody .r64Decode s.eng = .ok (s.eng.putBytes b) := by
      rw [commandBody, r64DecodeCmd_eq, Engine.strInTooLong_eq_false.2 hs, Engine.strInText, firstBytes, hb]
      rfl
    refine ⟨b, _, hb, by rw [exec_eq_complete, hbody, complete_ok], rfl, ?_, fun k => padTo_getElem 48 b k k.isLt⟩
    have hle : b.length < 256 := by
      rw [(r64Decode_length hb).2, hlen]
      split_ifs <;> omega
    exact (BitVec.toNat_ofNat ..).trans (Nat.mod_eq_of_lt hle)

end Sys2Proof.Machine
end

section
/-! PROOF. SALT_PARSE and SALT_GEN (30_encoding.md R115, R117; 42_codec.md R224 to R227). -/

namespace Sys2Proof.Machine

/-- Settles O41: each stage of the parse finds what the salt string was composed of. -/
theorem saltStringsParseBack : Obligations.SaltStringsParseBack := fun minor _ salt rest hm h4 h31 =>
  ⟨parseSalt_saltString salt rest (isMinor_of_mem minor hm) h4 h31, saltString_length Vector.length_toList⟩

/-! ## SALT_PARSE -/

/-- A string in the form of R115 passes every stage of the parse. -/
theorem parseSalt_wellFormed {minor d1 d2 : Byte} {field rest b : List Byte}
    (hm : minor ∈ [0x61#8, 0x62#8, 0x78#8, 0x79#8]) (hd1 : 0x30 ≤ d1.toNat ∧ d1.toNat ≤ 0x39)
    (hd2 : 0x30 ≤ d2.toNat ∧ d2.toNat ≤ 0x39) (h4 : 4 ≤ 10 * (d1.toNat - 0x30) + (d2.toNat - 0x30))
    (h31 : 10 * (d1.toNat - 0x30) + (d2.toNat - 0x30) ≤ 31) (hlen : field.length = 22)
    (hdec : r64Decode field = .ok b) :
    parseSalt ([0x24#8, 0x32#8, minor, 0x24#8, d1, d2, 0x24#8] ++ field ++ rest) =
      .ok ⟨minor, 10 * (d1.toNat - 0x30) + (d2.toNat - 0x30), padTo 16 b⟩ := by
  have hfield : saltField ([0x24#8, 0x32#8, minor, 0x24#8, d1, d2, 0x24#8] ++ field ++ rest) = field :=
    List.take_left' hlen
  exact parseSalt_of_stages (by simp [structureOk, chr]) rfl
    (formatOk_iff.2 ⟨isMinor_of_mem minor hm, isDigit_iff.2 hd1, isDigit_iff.2 hd2, h4, h31⟩)
    (by simp [hlen]) (hfield.symm ▸ hdec)

theorem exec_saltParse_of_parse {s : State} {r : ParsedSalt} (hs : s.eng.strInLen.toNat ≤ 60)
    (h : parseSalt s.eng.strInText = .ok r) :
    exec .saltParse s = .next { s with eng := (s.eng.parsed r).finish .none } := by
  rw [exec_eq_complete, commandBody, saltParse_eq, Engine.strInTooLong_eq_false.2 hs, h]
  rfl

/-- Settles O42: the 22 characters decode to the 16 bytes that SALT holds, and the string parses. -/
theorem saltParseWritesTheParsedSalt : Obligations.SaltParseWritesTheParsedSalt := by
  intro s minor d1 d2 field rest hs htext hm hd1 hd2 h4 h31 hlen hmem
  obtain ⟨b, hb⟩ := r64Decode_of_mem (by rw [hlen]; decide) hmem
  have hblen : b.length = 16 := by rw [(r64Decode_length hb).2, hlen]; rfl
  refine ⟨b, padTo 16 b, hb, padTo_toList_self hblen, ?_⟩
  exact exec_saltParse_of_parse hs ((congrArg parseSalt htext).trans (parseSalt_wellFormed hm hd1 hd2 h4 h31 hlen hb))

/-! ## SALT_GEN -/

theorem saltGenFrom_of_cost {e : Engine} (hc : costError e.cost = none) :
    saltGenFrom e = .ok (e.putStrOut (saltString (chr 'b') e.cost.toNat e.salt.toList)) := by
  simp only [saltGenFrom, genSalt, hc]

theorem saltGen_port {e : Engine} (hport : Config.hasRng = true) (hc : costError e.cost = none) :
    saltGen true e = saltGenFrom e.drawSalt := by
  simp [saltGen, hport, hc]

/-- SALT_GEN ends with the salt string of the engine `e` that holds its salt: `$2b$`, the cost, `$` and the encoding
of the salt (R226). -/
theorem exec_saltGen_of_body {rng : Bool} {s : State} {e : Engine} (hc : costError e.cost = none)
    (h : saltGen rng s.eng = saltGenFrom e) :
    ∃ t, exec (.saltGen rng) s = .next t ∧
      t = { s with eng := { e with strOut := t.eng.strOut, strOutLen := 29#8
                                   pend := none, done := true, err := .none } } ∧
      ∀ k : Fin 64, t.eng.strOut[k] =
        ([0x24#8, 0x32#8, 0x62#8, 0x24#8, BitVec.ofNat 8 (0x30 + e.cost.toNat / 10),
          BitVec.ofNat 8 (0x30 + e.cost.toNat % 10), 0x24#8] ++ r64Encode e.salt.toList).getD k.val 0 := by
  have hlen : (saltString (chr 'b') e.cost.toNat e.salt.toList).length = 29 := saltString_length Vector.length_toList
  have hbody : commandBody (.saltGen rng) s.eng = .ok (e.putStrOut (saltString (chr 'b') e.cost.toNat e.salt.toList)) :=
    h.trans (saltGenFrom_of_cost hc)
  obtain ⟨t, ht, heq, hbytes⟩ := exec_putStrOut hbody
  rw [hlen] at heq
  rw [saltString_eq] at hbytes
  exact ⟨t, ht, heq, hbytes⟩

/-- Settles O43: RNG = 0 takes the salt in place, RNG = 1 the engine after the draw, where there is a port. -/
theorem saltGenWritesASaltString : Obligations.SaltGenWritesASaltString := by
  intro s h4 h31
  have hc : costError s.eng.cost = none := costError_none.2 ⟨h4, h31⟩
  refine ⟨exec_saltGen_of_body hc rfl, ?_⟩
  cases hport : Config.hasRng with
  | false =>
    refine ⟨raiseError .illegalCommand s, ?_, rfl⟩
    rw [exec_eq_complete, commandBody, saltGen_noPort _ hport, complete_error]
  | true =>
    obtain ⟨t, ht, heq, hbytes⟩ := exec_saltGen_of_body (e := s.eng.drawSalt) hc (saltGen_port hport hc)
    have hsalt : t.eng.salt = s.eng.drawSalt.salt := by rw [heq]
    exact ⟨t, ht, heq, hsalt ▸ hbytes⟩

end Sys2Proof.Machine
end

section
/-! PROOF. WAIT (30_encoding.md R122). -/

namespace Sys2Proof.Machine

/-- A RD line whose index is a literal is one MemRead. -/
theorem runLine_rd_lit (h : HostAgent) (e : Engine) {r : Reg} {k : Nat} (x : Nat) (ha : r.offset + 4 * k < 0x2000) :
    h.runLine e (.rd r (.lit k) 4 x) =
      .next (h.advanceBinding x (e.memRead (r.offset + 4 * k)).1.toNat, (e.memRead (r.offset + 4 * k)).2) := by
  rw [runLine_rd, withAddress_lit _ _ ha]

/-- STATUS reads its word, busy or not, and the read moves nothing. -/
theorem memRead_statusWord (e : Engine) : e.memRead (Reg.status.offset + 4 * 0) = (e.statusWord, e) :=
  memRead_defined (t := .status) rfl rfl

theorem runLine_bnz {h : HostAgent} {x : Nat} {n : Int} (hx : lookupName h.env x = some n) (e : Engine) (mask l : Nat) :
    h.runLine e (.bnz x mask l) = if maskBits n mask ≠ 0 then h.jump l e else .next (h.advance, e) := by
  simp only [HostAgent.runLine, HostAgent.withValue, hx]

theorem jump_of_idxOf {h : HostAgent} {l i : Nat} (hl : h.prog.idxOf? (.label l) = some i) (e : Engine) :
    h.jump l e = .next ({ h with line := i }, e) := by
  simp only [HostAgent.jump, hl]

/-- Mask 1 takes a word's bit 0. -/
theorem maskBits_one_ne_zero (w : Word) : maskBits (w.toNat : Int) 1 ≠ 0 ↔ w.getLsbD 0 = true := by
  have hmask : maskBits (w.toNat : Int) 1 = w.toNat % 2 := by
    have hlog : Nat.log2 1 = 0 := by decide
    simp only [maskBits, hlog, Nat.and_one_is_mod]
    omega
  rw [hmask, BitVec.getLsbD, Nat.testBit_zero, decide_eq_true_iff]
  omega

/-- Bit 0 of STATUS is BUSY (10_state.md R36, R39). -/
theorem maskBits_statusWord (e : Engine) : maskBits (e.statusWord.toNat : Int) 1 ≠ 0 ↔ e.pend ≠ none := by
  obtain ⟨hbits, -⟩ := statusFieldsStandAtTheirBits
  obtain ⟨hbusy, -⟩ := hbits e
  rw [maskBits_one_ne_zero, hbusy, Option.isSome_iff_ne_none]

/-- Settles O55: the branch is taken on bit 0 of the STATUS word just read. -/
theorem waitLoopsWhileBusy : Obligations.WaitLoopsWhileBusy := by
  intro h e l st i hl
  have hread : h.runLine e (rd .status st) = .next (h.advanceBinding st e.statusWord.toNat, e) :=
    (runLine_rd_lit (r := .status) (k := 0) h e st (by decide)).trans (by rw [memRead_statusWord])
  have hname : lookupName (h.advanceBinding st e.statusWord.toNat).env st = some (e.statusWord.toNat : Int) :=
    (lookupName_bindName ..).trans (if_pos rfl)
  refine ⟨_, hread, rfl, rfl, hname, ?_⟩
  rw [runLine_bnz hname]
  by_cases hp : e.pend = none
  · rw [if_pos hp, if_neg (by rw [maskBits_statusWord]; exact not_not.2 hp)]
    rfl
  · rw [if_neg hp, if_pos ((maskBits_statusWord e).2 hp)]
    exact jump_of_idxOf (h := h.advanceBinding st _) hl e

end Sys2Proof.Machine
end
